-- ==== Sys2Proof/Word.lean ====
section
/-! DEFINITION. The block's word types: bytes of the wire and of the buffers, EEPROM addresses, and the 32-bit words of
the host register interface (spec/00_scope.md rule R8). -/

namespace Sys2Proof

/-- One byte of a transfer, of BUF, of STAGE or of the status register (R8: 8 bits). -/
abbrev Byte := BitVec 8

/-- An EEPROM start address as the command word holds it (R8, R90: 16 bits). -/
abbrev Addr := BitVec 16

/-- A host register word or a command word (R8: 32 bits). -/
abbrev Word := BitVec 32

end Sys2Proof
end

