-- ==== Sys2Proof/Config.lean ====
section
/-! DEFINITION. The build parameters of the block (spec/00_scope.md rule R9). A build is data that the machine carries and
no step changes, so that what is proved for every state is proved for every build. -/

namespace Sys2Proof

/-- The build parameters of R9. The environment parameters of R10 are not here: the block does not depend on them. -/
structure Build where
  /-- BUF_BYTES, the size in bytes of BUF and of STAGE; legal from 1 to 255. -/
  bufBytes : Nat
  /-- CS_GAP, the cycles chip-select stays deasserted after every frame; legal from 1 to 2^16-1. -/
  csGap : BitVec 16
  /-- WRITE_DELAY_RST, the reset value of WDELAY; any. -/
  writeDelayRst : Word
  /-- POLL_LIMIT_RST, the reset value of POLLCFG.LIMIT; legal from 1 to 2^16-1. -/
  pollLimitRst : BitVec 16
  /-- POLL_GAP_RST, the reset value of POLLCFG.GAP; any. -/
  pollGapRst : BitVec 16
  /-- TRANSPORT_HAS_ERR, whether the transport drives `xfer_err`. -/
  transportHasErr : Bool
deriving DecidableEq, Repr

/-- The legal ranges of R9. The ranges that a field's width already gives are not repeated. -/
abbrev Build.Legal (b : Build) : Prop :=
  1 ≤ b.bufBytes ∧ b.bufBytes ≤ 255 ∧ b.csGap ≠ 0 ∧ b.pollLimitRst ≠ 0

/-- The reference build of spec/95_test_vectors.md section 0: BUF_BYTES = 16, CS_GAP = 1, TRANSPORT_HAS_ERR = true.
DESIGN CHOICE, unsafe (assumption log 4): R9 leaves WRITE_DELAY_RST, POLL_LIMIT_RST and POLL_GAP_RST OPEN; here they are
0, 1 (the least legal value) and 0. Only `State.reset` uses this build; statements range over all builds. -/
def Build.reference : Build where
  bufBytes := 16
  csGap := 1
  writeDelayRst := 0
  pollLimitRst := 1
  pollGapRst := 0
  transportHasErr := true

end Sys2Proof
end

