-- ==== Sys2Proof/Machine/State.lean ====
section
/-! DEFINITION. The state of the block (spec/10_state.md rule R20), the inputs and outputs of one cycle
(spec/40_sequencer.md rule R120), and the state after reset (rule R44). -/

namespace Sys2Proof.Machine

/-- R21: the sequencer FSM state, the block's program counter. -/
inductive SeqState where
  | idle | check | assert | xfer | gap | delay | pgap | finish
deriving DecidableEq, Repr

/-- R23: the kind of the current frame, F_WREN to F_POLL. -/
inductive FrameKind where
  | wren | wrdi | read | write | rdsr | wrsr | poll
deriving DecidableEq, Repr

/-- R200: the four result codes, the four values of a 2-bit field. `ResultCode.code` gives the numbers. -/
inductive ResultCode where
  | ok | invalidArgument | timeout | busFault
deriving DecidableEq, Repr

/-- R27: the write-completion policy, the two values of CFG.POLICY. -/
inductive Policy where
  | fixedDelay | pollStatus
deriving DecidableEq, Repr

/-- A byte buffer of the block: index and byte pairs in one canonical form (`Memory.wf`). An index that is not listed reads
as `Memory.fill`. -/
abbrev Memory := List Host.Cell

/-- What an unlisted byte reads as. DESIGN CHOICE, unsafe (assumption log 5): R44 and R232 leave the bytes of BUF and STAGE
unspecified at power-up. -/
abbrev Memory.fill : Byte := 0x00

/-- The canonical form: indices strictly rise and no entry equals what an unlisted index reads as. -/
abbrev Memory.wf (m : Memory) : Prop :=
  m.Pairwise (fun x y => x.1 < y.1) ∧ ∀ c ∈ m, c.2 ≠ Memory.fill

/-- The host's access in one cycle (R120): none, a read or a write. `size` is in bytes; the word of a write narrower than
32 bits is of no consequence, since R31 admits 32-bit accesses only. -/
inductive HostAccess where
  | nothing
  | read (off : BitVec 9) (size : Nat)
  | write (off : BitVec 9) (size : Nat) (data : Word)
deriving DecidableEq, Repr

/-- The inputs of one cycle (R120). -/
structure CycleIn where
  rst : Bool
  host : HostAccess
  xferDone : Bool
  xferRx : Byte
  xferErr : Bool
deriving DecidableEq, Repr

/-- A cycle in which nothing reaches the block: no reset, no host access, no completed exchange. -/
def CycleIn.quiet : CycleIn where
  rst := false
  host := .nothing
  xferDone := false
  xferRx := 0
  xferErr := false

/-- The response of the host port to an access (R31 to R33): the data of a read, the completion of a write (performed,
ignored or dropped alike), or AccessError. -/
inductive HostResponse where
  | data (v : Word)
  | written
  | accessError
deriving DecidableEq, Repr

/-- The outputs of one cycle (R120). `xferTx` is `none` where the spec gives `xfer_tx` no value (assumption log 8);
`response` is `none` where the host made no access. -/
structure CycleOut where
  csN : Bool
  holdN : Bool
  xferReq : Bool
  xferTx : Option Byte
  response : Option HostResponse
deriving DecidableEq, Repr

/-- One cycle that has passed: what went in and what came out. -/
structure CycleRecord where
  inputs : CycleIn
  outputs : CycleOut
deriving DecidableEq, Repr

/-- The state of the block (R20), with its build parameters (R9) and its environment's inputs. -/
structure State where
  /-- `st` (R21). -/
  st : SeqState
  /-- LAST_CMD = `cur_opc`, `cur_addr`, `cur_arg` (R22). -/
  lastCmd : Word
  /-- `fk` (R23). -/
  fk : FrameKind
  /-- `si`, the slot index (R24). -/
  si : BitVec 9
  /-- `cnt`, the down-counter (R25). -/
  cnt : Word
  /-- `abort` (R26). -/
  abort : Bool
  /-- `res`, the result the command will report (R26). -/
  res : ResultCode
  /-- `polls`, read as POLLCNT (R26, R36). -/
  polls : BitVec 16
  /-- STAT.DONE (R35). -/
  done : Bool
  /-- STAT.RESULT (R35). -/
  result : ResultCode
  /-- STAT.DROP (R35, R33). -/
  drop : Bool
  /-- STAT.SR, the last status byte received (R35). -/
  sr : Byte
  /-- CFG.POLICY (R27). -/
  policy : Policy
  /-- WDELAY (R28). -/
  wdelay : Word
  /-- POLLCFG.LIMIT (R29). -/
  limit : BitVec 16
  /-- POLLCFG.GAP (R29). -/
  pollGap : BitVec 16
  /-- BUF (R37). -/
  buf : Memory
  /-- STAGE (R41). -/
  stage : Memory
  /-- The build parameters (R9), which no step changes (assumption log 4). -/
  build : Build
  /-- The MODEL's own: the inputs of the cycles to come, oldest first (assumption log 2). -/
  pending : List CycleIn
  /-- The MODEL's own: the cycles that have passed, oldest first; nothing reads it (assumption log 3). -/
  log : List CycleRecord
deriving DecidableEq, Repr

/-- The faults of the machine: none. "No error is fatal to the block" (R205), every transition of R141 has a next state, and
an access outside the register map is answered with AccessError (R31), which stops nothing (assumption log 14). -/
inductive Fault where
deriving DecidableEq, Repr

/-- The refusals of the machine. -/
inductive Refusal where
  /-- Raised by an arm of `exec` whose instruction has no meaning yet; no arm does. Safe: the model stops. -/
  | notModelled (mnemonic : String)
deriving DecidableEq, Repr

/-- R44: the state a build leaves reset in, with BUF, STAGE and the environment's fields empty. -/
def State.initial (b : Build) : State where
  st := .idle
  lastCmd := 0
  fk := .wren
  si := 0
  cnt := 0
  abort := false
  res := .ok
  polls := 0
  done := false
  result := .ok
  drop := false
  sr := 0
  policy := .pollStatus
  wdelay := b.writeDelayRst
  limit := b.pollLimitRst
  pollGap := b.pollGapRst
  buf := []
  stage := []
  build := b
  pending := []
  log := []

/-- The machine right after reset (R44, R230), in the reference build. Where the spec gives no value: WDELAY and POLLCFG are
the assumption log's entry 4, the bytes of BUF and STAGE entry 5 (both DESIGN CHOICE, unsafe); no input is pending and no
cycle has passed (entries 2 and 3). -/
def State.reset : State := State.initial Build.reference

end Sys2Proof.Machine
end

