-- ==== Sys2Proof/Machine/Flags.lean ====
section
/-! DEFINITION. The status bits (spec/10_state.md rules R35, R39, R40, R43), the result codes (spec/60_exceptions.md rule
R200) and the status decode (spec/42_control_status.md rule R183). -/

namespace Sys2Proof.Machine

/-- R200: the number of a result code. -/
def ResultCode.code : ResultCode → BitVec 2
  | .ok => 0
  | .invalidArgument => 1
  | .timeout => 2
  | .busFault => 3

/-- R27: the bit of a policy. -/
def Policy.bit : Policy → Bool
  | .fixedDelay => false
  | .pollStatus => true

/-- R27: the policy of a bit. -/
def Policy.ofBit : Bool → Policy
  | false => .fixedDelay
  | true => .pollStatus

/-- R183: `decodeStatus(b).writeInProgress`, bit 0 of a status byte; the other bits mean nothing. -/
def writeInProgress (b : Byte) : Bool := b.getLsbD 0

/-- R35: STAT.BUSY. -/
def State.busy (s : State) : Bool := !decide (s.st = .idle)

/-- R39: the chip-select output, low (asserted) exactly in ASSERT and XFER. -/
def State.csN (s : State) : Bool :=
  match s.st with
  | .assert | .xfer => false
  | .idle | .check | .gap | .delay | .pgap | .finish => true

/-- R40: the hold output, always 1. -/
def State.holdN (_s : State) : Bool := true

/-- R38: `xfer_req`, 1 exactly in XFER. -/
def State.xferReq (s : State) : Bool := decide (s.st = .xfer)

/-- R35: the STAT word, from its highest field down: reserved [31:17], WIP, SR, reserved [7], HOLD_N, CS_ACT, DROP, RESULT,
DONE, BUSY. -/
def State.statWord (s : State) : Word :=
  0#15 ++ BitVec.ofBool (writeInProgress s.sr) ++ s.sr ++ 0#1 ++ BitVec.ofBool s.holdN ++ BitVec.ofBool (!s.csN)
    ++ BitVec.ofBool s.drop ++ s.result.code ++ BitVec.ofBool s.done ++ BitVec.ofBool s.busy

end Sys2Proof.Machine
end

