-- ==== Sys2Proof/Syntax.lean ====
section
/-! DEFINITION. The six commands (spec/30_encoding.md rules R90 to R94), one constructor for each row of
spec/opcode_table.json. -/

namespace Sys2Proof

/-- A command. A field that the command ignores (R94) is an operand all the same, because the block records it in LAST_CMD:
it is named `unused…`. LEN is a count, so it is a natural number, and `Instr.WellFormed` gives its range (R92, R99); an
address and a status value are bit fields of the word. DESIGN CHOICE, safe (assumption log 7). -/
inductive Instr where
  /-- READ addr, len (R160). -/
  | read (addr : Addr) (len : Nat)
  /-- WRITE addr, len (R162). -/
  | write (addr : Addr) (len : Nat)
  /-- WREN (R180). -/
  | wren (unusedAddr : Addr) (unusedArg : Byte)
  /-- WRDI (R181). -/
  | wrdi (unusedAddr : Addr) (unusedArg : Byte)
  /-- RDSR (R182). -/
  | rdsr (unusedAddr : Addr) (unusedArg : Byte)
  /-- WRSR value (R184). -/
  | wrsr (value : Byte) (unusedAddr : Addr)
deriving DecidableEq, Repr

end Sys2Proof
end

