-- ==== Sys2Proof/WellFormed.lean ====
section
/-! DEFINITION. Which commands a command word can hold (spec/30_encoding.md rules R92 and R99). -/

namespace Sys2Proof

/-- R92, R99: LEN is 0 to 0xFF; an assembler refuses it out of that range. The other operands are bit fields of their own
width. A LEN of 0, or above BUF_BYTES, is well formed: it assembles, and the block rejects it when it runs (R122). -/
abbrev Instr.WellFormed : Instr → Prop
  | .read _ len => len ≤ 0xFF
  | .write _ len => len ≤ 0xFF
  | .wren _ _ => True
  | .wrdi _ _ => True
  | .rdsr _ _ => True
  | .wrsr _ _ => True

end Sys2Proof
end

