-- ==== Sys2Proof/Decode.lean ====
section
/-! DEFINITION. The command word: its fields, the decoder and the encoder (spec/30_encoding.md rules R90 to R94). -/

namespace Sys2Proof

/-- R90: OPC, bits [7:0] of the command word. -/
def opcField (w : Word) : Byte := w.extractLsb' 0 8

/-- R90, R91: ADDR, bits [23:8], unsigned, neither extended nor scaled. -/
def addrField (w : Word) : Addr := w.extractLsb' 8 16

/-- R90, R92: ARG, bits [31:24]: LEN for READ and WRITE, the status value for WRSR. -/
def argField (w : Word) : Byte := w.extractLsb' 24 8

/-- R90: the word with the given fields. -/
def commandWord (arg : Byte) (addr : Addr) (opc : Byte) : Word := arg ++ addr ++ opc

/-- R93: the code of WRSR. -/
def opcWrsr : Byte := 0x01
/-- R93: the code of WRITE. -/
def opcWrite : Byte := 0x02
/-- R93: the code of READ. -/
def opcRead : Byte := 0x03
/-- R93: the code of WRDI. -/
def opcWrdi : Byte := 0x04
/-- R93: the code of RDSR. -/
def opcRdsr : Byte := 0x05
/-- R93: the code of WREN. -/
def opcWren : Byte := 0x06

/-- Why a command word is no command. -/
inductive DecodeError where
  /-- R94: OPC is none of the six codes of R93. The block still accepts the word and finishes it with InvalidArgument
  (R122); `step` does so. -/
  | reservedOpcode (opc : Byte)
deriving DecidableEq, Repr

/-- R93: the command a word holds; the match is on bits [7:0] alone. Every other OPC is reserved (R94). -/
def decode (w : Word) : Except DecodeError Instr :=
  if opcField w = opcRead then .ok (.read (addrField w) (argField w).toNat)
  else if opcField w = opcWrite then .ok (.write (addrField w) (argField w).toNat)
  else if opcField w = opcWren then .ok (.wren (addrField w) (argField w))
  else if opcField w = opcWrdi then .ok (.wrdi (addrField w) (argField w))
  else if opcField w = opcRdsr then .ok (.rdsr (addrField w) (argField w))
  else if opcField w = opcWrsr then .ok (.wrsr (argField w) (addrField w))
  else .error (.reservedOpcode (opcField w))

/-- R90, R93, R99: the command word of a command. -/
def encode : Instr → Word
  | .read addr len => commandWord (BitVec.ofNat 8 len) addr opcRead
  | .write addr len => commandWord (BitVec.ofNat 8 len) addr opcWrite
  | .wren addr arg => commandWord arg addr opcWren
  | .wrdi addr arg => commandWord arg addr opcWrdi
  | .rdsr addr arg => commandWord arg addr opcRdsr
  | .wrsr value addr => commandWord value addr opcWrsr

/-- The command word that `nbits` bits `w` of the opcode table stand for. The word is one datum of the 32-bit host port, so
it has no byte order (R90, R31); bits at or above `nbits` are 0. -/
def tableWord (nbits w : Nat) : Word := BitVec.ofNat 32 (w % 2 ^ nbits)

/-- What the decoder reads from a word numbered as spec/opcode_table.json numbers it. -/
def decodeTableWord (nbits w : Nat) : Option Instr :=
  match decode (tableWord nbits w) with
  | .ok i => some i
  | .error _ => none

end Sys2Proof
end

