-- ==== Sys2Proof/Machine/Operands.lean ====
section
/-! DEFINITION. The operands of the command in progress and the framer (spec/10_state.md rule R22, spec/30_encoding.md rules
R91, R92, R95 to R97). -/

namespace Sys2Proof.Machine

/-- R22: `cur_opc`. -/
def State.curOpc (s : State) : Byte := opcField s.lastCmd

/-- R22: `cur_addr`. -/
def State.curAddr (s : State) : Addr := addrField s.lastCmd

/-- R22: `cur_arg`. -/
def State.curArg (s : State) : Byte := argField s.lastCmd

/-- R61, R91: AH, the address byte that goes first. -/
def addrHigh (a : Addr) : Byte := a.extractLsb' 8 8

/-- R61, R91: AL, the address byte that goes second. -/
def addrLow (a : Addr) : Byte := a.extractLsb' 0 8

/-- The byte at an index of a buffer; an unlisted index reads as `Memory.fill`. -/
def Memory.read (m : Memory) (i : Nat) : Byte :=
  match m with
  | [] => Memory.fill
  | (k, b) :: rest => if k = i then b else Memory.read rest i

/-- R122: whether the command in progress is valid. -/
def State.validCommand (s : State) : Bool :=
  decide (s.curOpc ∈ [opcWrsr, opcWrite, opcRead, opcWrdi, opcRdsr, opcWren]) &&
    (!decide (s.curOpc ∈ [opcWrite, opcRead]) ||
      (decide (1 ≤ s.curArg.toNat) && decide (s.curArg.toNat ≤ s.build.bufBytes)))

/-- R123: the first frame of a command, by its code. Only a valid command's code is asked for; the last row, F_WRSR, is
WRSR's. -/
def firstFrame (opc : Byte) : FrameKind :=
  if opc = opcRead then .read
  else if opc = opcWrite then .wren
  else if opc = opcWren then .wren
  else if opc = opcWrdi then .wrdi
  else if opc = opcRdsr then .rdsr
  else .wrsr

/-- R96: `flen(fk)`, the number of bytes of a frame. -/
def State.flen (s : State) : FrameKind → Nat
  | .wren | .wrdi => 1
  | .rdsr | .poll | .wrsr => 2
  | .read | .write => 3 + s.curArg.toNat

/-- R97: the byte of a slot of a frame, for a slot below `flen`. -/
def State.slotByte (s : State) (fk : FrameKind) (slot : Nat) : Byte :=
  match fk, slot with
  | .wren, _ => opcWren
  | .wrdi, _ => opcWrdi
  | .rdsr, 0 => opcRdsr
  | .rdsr, _ => 0x00
  | .poll, 0 => opcRdsr
  | .poll, _ => 0x00
  | .wrsr, 0 => opcWrsr
  | .wrsr, _ => s.curArg
  | .read, 0 => opcRead
  | .read, 1 => addrHigh s.curAddr
  | .read, 2 => addrLow s.curAddr
  | .read, _ => 0x00
  | .write, 0 => opcWrite
  | .write, 1 => addrHigh s.curAddr
  | .write, 2 => addrLow s.curAddr
  | .write, n + 3 => s.buf.read n

/-- R97: `txbyte(fk, si)`, defined for `si < flen(fk)`; `none` where R97 does not define it (assumption log 8). -/
def State.txByte (s : State) (fk : FrameKind) (slot : Nat) : Option Byte :=
  if slot < s.flen fk then some (s.slotByte fk slot) else none

/-- R38, R120: `xfer_tx`, the byte of the current slot while a byte is requested. -/
def State.xferTx (s : State) : Option Byte :=
  if s.st = .xfer then s.txByte s.fk s.si.toNat else none

end Sys2Proof.Machine
end

