-- ==== Sys2Proof/Machine/Ops.lean ====
section
/-! DEFINITION. The shared operations: the buffers, the host port, the FSM transitions of spec/40_sequencer.md one by one,
the error path and the return from it, one clock cycle, and a command run over the cycles that are pending. -/

namespace Sys2Proof.Machine

/-! ### The buffers -/

/-- Write a byte, keeping the canonical form: writing what an unlisted index reads as removes the entry. -/
def Memory.write (m : Memory) (i : Nat) (b : Byte) : Memory :=
  match m with
  | [] => if b = Memory.fill then [] else [(i, b)]
  | (k, c) :: rest =>
    if i < k then (if b = Memory.fill then (k, c) :: rest else (i, b) :: (k, c) :: rest)
    else if i = k then (if b = Memory.fill then rest else (i, b) :: rest)
    else (k, c) :: Memory.write rest i b

/-- `dst[i] <- src[i]` for `i` in `0 .. n-1` (R127). -/
def Memory.copyFrom (src : Memory) (n : Nat) (dst : Memory) : Memory :=
  match n with
  | 0 => dst
  | n + 1 => (Memory.copyFrom src n dst).write n (src.read n)

/-- Write a byte of a buffer of `bound` bytes: an index at or above `bound` does not exist and ignores the write (R37). -/
def Memory.writeBelow (bound : Nat) (m : Memory) (i : Nat) (b : Byte) : Memory := if i < bound then m.write i b else m

/-- `m[i] <- bytes[i - base]` for each byte, from index `base` on. -/
def Memory.store (m : Memory) (base : Nat) : List Byte → Memory
  | [] => m
  | b :: bs => (m.write base b).store (base + 1) bs

/-- R41: write one byte of STAGE, which has BUF_BYTES bytes too (assumption log 6). -/
def State.setStage (s : State) (i : Nat) (b : Byte) : State :=
  { s with stage := s.stage.writeBelow s.build.bufBytes i b }

/-- R127: `BUF[i] <- STAGE[i]` for `i` in `0 .. n-1`. -/
def State.commitStage (s : State) (n : Nat) : State :=
  { s with buf := s.stage.copyFrom (min n s.build.bufBytes) s.buf }

/-! ### The host port -/

/-- R30: what a mapped offset names. -/
inductive HostReg where
  | cmd | stat | cfg | wdelay | pollcfg | pollcnt
  /-- BUF word `k`. -/
  | bufWord (k : Nat)
deriving DecidableEq, Repr

/-- R30: the register map. `none` where the offset is unmapped or not a multiple of 4. -/
def hostReg (b : Build) (off : BitVec 9) : Option HostReg :=
  if off.toNat % 4 ≠ 0 then none
  else if off = 0x000 then some .cmd
  else if off = 0x004 then some .stat
  else if off = 0x008 then some .cfg
  else if off = 0x00C then some .wdelay
  else if off = 0x010 then some .pollcfg
  else if off = 0x014 then some .pollcnt
  else if 0x100 ≤ off.toNat ∧ (off.toNat - 0x100) / 4 < (b.bufBytes + 3) / 4 then some (.bufWord ((off.toNat - 0x100) / 4))
  else none

/-- R31: the register an access reaches; `none` is an AccessError. -/
def hostTarget (b : Build) (off : BitVec 9) (size : Nat) : Option HostReg :=
  if size = 4 then hostReg b off else none

/-- R37: the byte BUF shows the host at an index: 0 at and above BUF_BYTES. -/
def State.bufLane (s : State) (i : Nat) : Byte := if i < s.build.bufBytes then s.buf.read i else 0

/-- R37, R63: BUF word `k`, little-endian. -/
def State.bufWord (s : State) (k : Nat) : Word :=
  s.bufLane (4 * k + 3) ++ s.bufLane (4 * k + 2) ++ s.bufLane (4 * k + 1) ++ s.bufLane (4 * k)

/-- R27 to R29, R34 to R37: the value of a register. -/
def State.readReg (s : State) : HostReg → Word
  | .cmd => s.lastCmd
  | .stat => s.statWord
  | .cfg => 0#31 ++ BitVec.ofBool s.policy.bit
  | .wdelay => s.wdelay
  | .pollcfg => s.pollGap ++ s.limit
  | .pollcnt => 0#16 ++ s.polls
  | .bufWord k => s.bufWord k

/-- R121: acceptance of a command word. -/
def State.accept (s : State) (w : Word) : State :=
  { s with lastCmd := w, done := false, result := .ok, drop := false, abort := false, res := .ok, polls := 0, st := .check }

/-- R27. -/
def State.setCfg (s : State) (v : Word) : State := { s with policy := Policy.ofBit (v.getLsbD 0) }

/-- R28. -/
def State.setWdelay (s : State) (v : Word) : State := { s with wdelay := v }

/-- R29: a write of 0 to LIMIT stores 1. -/
def State.setPollcfg (s : State) (v : Word) : State :=
  { s with limit := if v.extractLsb' 0 16 = 0 then 1 else v.extractLsb' 0 16, pollGap := v.extractLsb' 16 16 }

/-- R37, R63: write BUF word `k`, little-endian. -/
def State.setBufWord (s : State) (k : Nat) (v : Word) : State :=
  { s with
    buf := (((s.buf.writeBelow s.build.bufBytes (4 * k) (v.extractLsb' 0 8)).writeBelow s.build.bufBytes (4 * k + 1)
      (v.extractLsb' 8 8)).writeBelow s.build.bufBytes (4 * k + 2) (v.extractLsb' 16 8)).writeBelow s.build.bufBytes
      (4 * k + 3) (v.extractLsb' 24 8) }

/-- R33, R34: a write performed while the block is idle. STAT and POLLCNT ignore it. -/
def State.writeReg (s : State) (v : Word) : HostReg → State
  | .cmd => s.accept v
  | .stat => s
  | .cfg => s.setCfg v
  | .wdelay => s.setWdelay v
  | .pollcfg => s.setPollcfg v
  | .pollcnt => s
  | .bufWord k => s.setBufWord k v

/-- R33: DROP is set. -/
def State.setDrop (s : State) : State := { s with drop := true }

/-- R33: a write dropped because the block is busy. STAT and POLLCNT ignore it and do not set DROP. -/
def State.dropWrite (s : State) : HostReg → State
  | .stat | .pollcnt => s
  | .cmd | .cfg | .wdelay | .pollcfg | .bufWord _ => s.setDrop

/-- R31 to R33: the effect of the cycle's host access on the state. -/
def State.hostEffect (s : State) : HostAccess → State
  | .nothing => s
  | .read _ _ => s
  | .write off size v =>
    match hostTarget s.build off size with
    | none => s
    | some r => if s.st = .idle then s.writeReg v r else s.dropWrite r

/-- R31 to R33: the response to the cycle's host access, from the state of the cycle. -/
def State.respond (s : State) : HostAccess → Option HostResponse
  | .nothing => none
  | .read off size =>
    match hostTarget s.build off size with
    | none => some .accessError
    | some r => some (.data (s.readReg r))
  | .write off size _ =>
    match hostTarget s.build off size with
    | none => some .accessError
    | some _ => some .written

/-! ### The error path and the return from it (R208, R209) -/

/-- R122, R134: InvalidArgument and Timeout end the command with chip-select already released: the code goes to `res` and the
FSM to FINISH. -/
def State.raise (s : State) (e : ResultCode) : State := { s with res := e, st := .finish }

/-- R128: BusFault closes the chip-select window: `abort` is set, the code goes to `res`, and the FSM to GAP for CS_GAP
cycles. -/
def State.raiseBusFault (s : State) : State :=
  { s with abort := true, res := .busFault, cnt := s.build.csGap.setWidth 32, st := .gap }

/-- R135, R209: FINISH, the end of every command, with an error or without: DONE and RESULT are written and the block is idle
again. -/
def State.finishCommand (s : State) : State := { s with done := true, result := s.res, st := .idle }

/-! ### The FSM transitions -/

/-- R130: on to FINISH with `res` as it stands. -/
def State.toFinish (s : State) : State := { s with st := .finish }

/-- R123, R130, R134: open the next frame. -/
def State.openFrame (s : State) (fk : FrameKind) : State := { s with fk := fk, st := .assert }

/-- R122, R123: CHECK. -/
def State.checkEdge (s : State) : State :=
  if s.validCommand then s.openFrame (firstFrame s.curOpc) else s.raise .invalidArgument

/-- R124: ASSERT. -/
def State.assertEdge (s : State) : State := { s with si := 0, st := .xfer }

/-- R98: `SR <- rx`. -/
def State.setSr (s : State) (rx : Byte) : State := { s with sr := rx }

/-- R98: what the block does with the byte received in a slot. -/
def State.capture (s : State) (fk : FrameKind) (slot : Nat) (rx : Byte) : State :=
  match fk with
  | .read => if 3 ≤ slot ∧ slot < 3 + s.curArg.toNat then s.setStage (slot - 3) rx else s
  | .rdsr | .poll => if slot = 1 then s.setSr rx else s
  | .wren | .wrdi | .write | .wrsr => s

/-- R126: on to the next slot. -/
def State.nextSlot (s : State) : State := { s with si := s.si + 1 }

/-- R127: `polls <- polls + 1`. -/
def State.countPoll (s : State) : State := { s with polls := s.polls + 1 }

/-- R127: the effect of a whole frame, after its last byte is captured. R66, R234 and D40 say that BUF keeps its contents while
BUSY = 1; R127, R141 and C8 put a READ's copy at this edge, while the block is busy still, and the model follows them: in GAP and
FINISH a host read shows the new bytes. DEDUCED, unsafe for a claim about those cycles (assumption log 19). -/
def State.frameEffect (s : State) : FrameKind → State
  | .read => s.commitStage s.curArg.toNat
  | .poll => s.countPoll
  | .wren | .wrdi | .write | .rdsr | .wrsr => s

/-- R127: the frame closes and chip-select is released for CS_GAP cycles. -/
def State.closeFrame (s : State) : State := { s with cnt := s.build.csGap.setWidth 32, st := .gap }

/-- R38: `xfer_err` as the block sees it: tied to 0 where the transport does not drive it. -/
def State.xferFails (s : State) (x : CycleIn) : Bool := x.xferErr && s.build.transportHasErr

/-- R125 to R128: XFER. -/
def State.xferEdge (s : State) (x : CycleIn) : State :=
  if x.xferDone = false then s
  else if s.xferFails x then s.raiseBusFault
  else if s.si.toNat < s.flen s.fk - 1 then (s.capture s.fk s.si.toNat x.xferRx).nextSlot
  else ((s.capture s.fk s.si.toNat x.xferRx).frameEffect s.fk).closeFrame

/-- R130: on to the FIXED_DELAY wait. -/
def State.startDelay (s : State) : State := { s with cnt := s.wdelay, st := .delay }

/-- R130: the wait after a WRITE's data frame, by the policy of CFG. -/
def State.startWait (s : State) : State :=
  match s.policy with
  | .fixedDelay => if s.wdelay = 0 then s.toFinish else s.startDelay
  | .pollStatus => s.openFrame .poll

/-- R134: on to the inter-poll delay. -/
def State.startPollGap (s : State) : State := { s with cnt := s.pollGap.setWidth 32, st := .pgap }

/-- R134: the poll decision. -/
def State.pollDecision (s : State) : State :=
  if writeInProgress s.sr = false then s.toFinish
  else if s.limit ≤ s.polls then s.raise .timeout
  else if s.pollGap = 0 then s.openFrame .poll
  else s.startPollGap

/-- R130: leaving GAP. -/
def State.afterGap (s : State) : State :=
  if s.abort then s.toFinish
  else if s.fk = .wren ∧ s.curOpc = opcWrite then s.openFrame .write
  else if s.fk = .write then s.startWait
  else if s.fk = .poll then s.pollDecision
  else s.toFinish

/-- R129, R132, R133: one cycle of the down-counter. -/
def State.countDown (s : State) : State := { s with cnt := s.cnt - 1 }

/-- R129: GAP. -/
def State.gapEdge (s : State) : State := if 1 < s.cnt then s.countDown else s.afterGap

/-- R132: DELAY. -/
def State.delayEdge (s : State) : State := if 1 < s.cnt then s.countDown else s.toFinish

/-- R133: on to ASSERT, with the frame kind as it is. -/
def State.reassert (s : State) : State := { s with st := .assert }

/-- R133: PGAP; the next frame is F_POLL still. -/
def State.pgapEdge (s : State) : State := if 1 < s.cnt then s.countDown else s.reassert

/-- R121 to R135, R141: the FSM transition, without the host's effect. In IDLE the only transition is the acceptance of a
command, which is the effect of the host's write of CMD (`State.accept`). -/
def State.fsmEdge (s : State) (x : CycleIn) : State :=
  match s.st with
  | .idle => s
  | .check => s.checkEdge
  | .assert => s.assertEdge
  | .xfer => s.xferEdge x
  | .gap => s.gapEdge
  | .delay => s.delayEdge
  | .pgap => s.pgapEdge
  | .finish => s.finishCommand

/-! ### One cycle -/

/-- R230: reset gives every element its value of R44, but BUF and STAGE, which keep their contents. -/
def State.resetEdge (s : State) : State :=
  { State.initial s.build with buf := s.buf, stage := s.stage, pending := s.pending, log := s.log }

/-- R120, R141: the edge that ends a cycle. Reset overrides everything. While the block is idle the host's write is the whole
effect; while it is busy the host can only set DROP, which no transition reads or writes, so the FSM transition follows it. -/
def State.edge (s : State) (x : CycleIn) : State :=
  if x.rst then s.resetEdge
  else if s.st = .idle then s.hostEffect x.host
  else (s.hostEffect x.host).fsmEdge x

/-- R120: the outputs in a cycle, functions of the state alone but for the response to the host's access. -/
def State.outputs (s : State) (x : CycleIn) : CycleOut where
  csN := s.csN
  holdN := s.holdN
  xferReq := s.xferReq
  xferTx := s.xferTx
  response := s.respond x.host

/-- R120: one clock cycle, recorded in the log. -/
def State.cycle (s : State) (x : CycleIn) : State :=
  { s.edge x with log := s.log ++ [⟨x, s.outputs x⟩] }

/-! ### A command -/

/-- The cycles `xs` one after another, as long as the block is busy; with the state go the cycles that are left. -/
def State.runBusy (s : State) : List CycleIn → State × List CycleIn
  | [] => (s, [])
  | x :: xs => if s.st = .idle then (s, x :: xs) else (s.cycle x).runBusy xs

/-- The cycles that a run has left are the pending ones. -/
def State.withPending (s : State) (xs : List CycleIn) : State := { s with pending := xs }

/-- The inputs of the current cycle: the first pending ones, or a quiet cycle where none is pending (assumption log 2). -/
def State.currentInputs (s : State) : CycleIn := s.pending.head?.getD CycleIn.quiet

/-- R100 `hw OFF, VAL`: a 32-bit host write. -/
def hw (off : BitVec 9) (v : Word) : HostAccess := .write off 4 v

/-- R100 `hr OFF`: a 32-bit host read. -/
def hr (off : BitVec 9) : HostAccess := .read off 4

/-- R34: the host writes command word `w` to CMD in the current cycle. An idle block accepts it, and the command then runs over
the cycles that are pending, until the block is idle again or no cycle is left (assumption log 1). A busy block drops the
write (R33); that cycle's own transition goes on. -/
def State.issue (s : State) (w : Word) : State :=
  let t := s.cycle { s.currentInputs with host := hw 0x000 w }
  if s.st = .idle then (t.runBusy s.pending.tail).1.withPending (t.runBusy s.pending.tail).2
  else t.withPending s.pending.tail

end Sys2Proof.Machine
end

