-- ==== Sys2Proof/Machine/LatchStatus.lean ====
section
/-! DEFINITION. The latch and status commands WREN, WRDI, RDSR and WRSR (spec/42_control_status.md), on the FSM of
Machine/Ops.lean. None of them is ever an InvalidArgument; each ends with BusFault when an exchange fails. -/

namespace Sys2Proof.Machine

/-- R180: WREN. One frame `06`; the received byte is discarded. -/
def execWren (unusedAddr : Addr) (unusedArg : Byte) (s : State) : Host.Outcome State Fault Refusal :=
  .next (s.issue (encode (.wren unusedAddr unusedArg)))

/-- R181: WRDI. One frame `04`; the received byte is discarded. -/
def execWrdi (unusedAddr : Addr) (unusedArg : Byte) (s : State) : Host.Outcome State Fault Refusal :=
  .next (s.issue (encode (.wrdi unusedAddr unusedArg)))

/-- R182, R183: RDSR. One frame `05 00`; the byte received in its second slot goes to SR. -/
def execRdsr (unusedAddr : Addr) (unusedArg : Byte) (s : State) : Host.Outcome State Fault Refusal :=
  .next (s.issue (encode (.rdsr unusedAddr unusedArg)))

/-- R184: WRSR value. One frame `01 value`; the received bytes are discarded. No write-enable frame before it and no wait
after it. -/
def execWrsr (value : Byte) (unusedAddr : Addr) (s : State) : Host.Outcome State Fault Refusal :=
  .next (s.issue (encode (.wrsr value unusedAddr)))

end Sys2Proof.Machine
end

