-- ==== Sys2Proof/Machine/ReadWrite.lean ====
section
/-! DEFINITION. The data transfer commands READ and WRITE (spec/41_read_write.md). Each is issued by a write of CMD and runs on
the one FSM of Machine/Ops.lean, whose transitions take from LAST_CMD what is particular to the command: validity
(`State.validCommand`), the first frame (`firstFrame`), the bytes (`State.slotByte`), the capture (`State.capture`), the effect
of a whole frame (`State.frameEffect`) and what follows it (`State.afterGap`). -/

namespace Sys2Proof.Machine

/-- R160, R161: READ addr, len. One F_READ frame `03 AH AL 00…`; the bytes received from slot 3 on go to STAGE and, at the
last byte, to BUF[0 .. len-1]. InvalidArgument when `len` is 0 or above BUF_BYTES (R122), BusFault, with BUF unchanged, when
an exchange fails (R128). -/
def execRead (addr : Addr) (len : Nat) (s : State) : Host.Outcome State Fault Refusal :=
  .next (s.issue (encode (.read addr len)))

/-- R162 to R164: WRITE addr, len. A frame `06`, then a frame `02 AH AL BUF[0 .. len-1]`, then the wait: WDELAY cycles
(FIXED_DELAY) or at most POLLCFG.LIMIT status polls (POLL_STATUS, which may end with Timeout). InvalidArgument and BusFault
as for READ. -/
def execWrite (addr : Addr) (len : Nat) (s : State) : Host.Outcome State Fault Refusal :=
  .next (s.issue (encode (.write addr len)))

end Sys2Proof.Machine
end

