-- ==== Sys2Proof/Machine/Dispatch.lean ====
section
/-! DEFINITION. The meaning of every command: one arm per constructor of `Instr`. -/

namespace Sys2Proof.Machine

/-- Issue a command: the host writes its word to CMD in the current cycle (R34, R121). -/
def exec (i : Instr) (s : State) : Host.Outcome State Fault Refusal :=
  match i with
  | .read addr len => Sys2Proof.Machine.execRead addr len s
  | .write addr len => Sys2Proof.Machine.execWrite addr len s
  | .wren unusedAddr unusedArg => Sys2Proof.Machine.execWren unusedAddr unusedArg s
  | .wrdi unusedAddr unusedArg => Sys2Proof.Machine.execWrdi unusedAddr unusedArg s
  | .rdsr unusedAddr unusedArg => Sys2Proof.Machine.execRdsr unusedAddr unusedArg s
  | .wrsr value unusedAddr => Sys2Proof.Machine.execWrsr value unusedAddr s

end Sys2Proof.Machine
end

