-- ==== Sys2Proof/Machine/HostProgram.lean ====
section
/-! DEFINITION. The host's side: which accesses issue a command, and the host operations and pseudo-instructions of
spec/30_encoding.md rule R100, run cycle by cycle. The host's own control flow (`if`, `goto`) is no part of the block. The spec
leaves the host's pace to the host; here a sequence makes one host operation in every cycle (DESIGN CHOICE, safe, assumption
log 21). -/

namespace Sys2Proof.Machine

/-- R34: the word that an access writes to CMD, if it is such a write. -/
def HostAccess.commandWord? : HostAccess → Option Word
  | .write off size w => if off = 0x000 ∧ size = 4 then some w else none
  | .nothing => none
  | .read _ _ => none

/-- One clock cycle with the pending inputs, or quiet ones where none is pending. -/
def State.advance (s : State) : State :=
  (s.cycle s.currentInputs).withPending s.pending.tail

/-- One clock cycle in which the host makes the access `a`; reset and the transport's answers are the pending ones. -/
def State.hostCycle (s : State) (a : HostAccess) : State :=
  (s.cycle { s.currentInputs with host := a }).withPending s.pending.tail

/-- R100 `cmd <command>`: a host write of the command's word to CMD. -/
def cmd (i : Instr) : HostAccess := hw 0x000 (encode i)

/-- R100 `wait_idle -> s`: the host reads STAT in every cycle of `xs` until it reads BUSY = 0, and keeps that value; `none`
where the cycles end first. That it reads in every cycle is the model's choice (assumption log 21). -/
def State.waitIdle (s : State) : List CycleIn → State × Option Word
  | [] => (s.withPending [], none)
  | x :: xs =>
    let t := s.cycle { x with host := hr 0x004 }
    if s.st = .idle then (t.withPending xs, some s.statWord) else t.waitIdle xs

/-- R100: `cmd <command>; wait_idle -> s`. -/
def State.runCommand (s : State) (i : Instr) : State × Option Word :=
  let t := s.hostCycle (cmd i)
  t.waitIdle t.pending

/-- R35, R200: the result field of a STAT word, `s[3:2]`. -/
def statResult (v : Word) : BitVec 2 := v.extractLsb' 2 2

/-- The offset of BUF word `k` (R30). The sequences below ask for `k` below 64 only, where it does not wrap (`lengthInRange`). -/
def bufOffset (k : Nat) : BitVec 9 := BitVec.ofNat 9 (0x100 + 4 * k)

/-- Why a host sequence of R100 has no result. -/
inductive HostError where
  /-- R200: the command ended with this result code. -/
  | result (code : BitVec 2)
  /-- R31: a read of a BUF word was answered with AccessError and brought no data. -/
  | accessError
  /-- R99: the length is out of the range of `len`, so that the command does not assemble. -/
  | outOfRange
deriving DecidableEq, Repr

/-- R99: the lengths that assemble. DESIGN CHOICE, safe (assumption log 18): R100 does not say what a sequence with another
length is; here it is refused whole, before its first host operation. -/
def lengthInRange (len : Nat) : Bool := decide (len ≤ 0xFF)

/-- The word that a response brings; an AccessError brings none (R31). -/
def HostResponse.word? : HostResponse → Option Word
  | .data v => some v
  | .written => none
  | .accessError => none

/-- R100: `hr 0x100 + 4k` for `k = 0 .. n-1`, the words read in order, one in each cycle (assumption log 21). `none` where one of them is answered with AccessError
(R31); the later reads are made all the same. DESIGN CHOICE, safe (assumption log 17): R100 does not say what the sequence
gives then. -/
def State.readWords (s : State) (n : Nat) : State × Option (List Word) :=
  match n with
  | 0 => (s, some [])
  | n + 1 =>
    let (t, ws) := s.readWords n
    (t.hostCycle (hr (bufOffset n)),
      ws.bind fun vs => ((t.respond (hr (bufOffset n))).bind HostResponse.word?).map fun v => vs ++ [v])

/-- The bytes of words in BUF order (R63). -/
def bytesOfWords : List Word → List Byte
  | [] => []
  | w :: ws => w.extractLsb' 0 8 :: w.extractLsb' 8 8 :: w.extractLsb' 16 8 :: w.extractLsb' 24 8 :: bytesOfWords ws

/-- The byte at an index of some data. What the host puts above the data, in the last word of data whose length is no multiple of
4, R100 leaves open: it is `above`, an argument that nothing constrains (DESIGN CHOICE, safe, assumption log 22). -/
def dataByte (data : List Byte) (above : Nat → Byte) (i : Nat) : Byte := data.getD i (above i)

/-- BUF word `k` of some data, little-endian (R63). -/
def wordOfBytes (data : List Byte) (above : Nat → Byte) (k : Nat) : Word :=
  dataByte data above (4 * k + 3) ++ dataByte data above (4 * k + 2) ++ dataByte data above (4 * k + 1) ++
    dataByte data above (4 * k)

/-- R100: `hw 0x100 + 4k, word k of data` for `k = 0 .. n-1`, one in each cycle (assumption log 21). A word past BUF is answered with AccessError and changes nothing
(R31). -/
def State.writeWords (s : State) (data : List Byte) (above : Nat → Byte) (n : Nat) : State :=
  match n with
  | 0 => s
  | n + 1 => (s.writeWords data above n).hostCycle (hw (bufOffset n) (wordOfBytes data above n))

/-- What a sequence answers from the final STAT word: `value` after Ok, the result code after anything else. R100 states it for
writeEeprom; for readStatus see there. -/
def resultOf {α : Type} (v : Word) (value : α) : Except HostError α :=
  if statResult v = 0 then .ok value else .error (.result (statResult v))

/-- R100 `readEeprom(addr, len)`: the bytes read, or the error; `none` where the command does not finish in the cycles that are
pending. -/
def State.readEeprom (s : State) (addr : Addr) (len : Nat) : State × Option (Except HostError (List Byte)) :=
  if lengthInRange len then
    match s.runCommand (.read addr len) with
    | (t, none) => (t, none)
    | (t, some v) =>
      if statResult v = 0 then
        match t.readWords ((len + 3) / 4) with
        | (u, some ws) => (u, some (.ok ((bytesOfWords ws).take len)))
        | (u, none) => (u, some (.error .accessError))
      else (t, some (.error (.result (statResult v))))
  else (s, some (.error .outOfRange))

/-- R100 `writeEeprom(addr, data)`: Ok, or the error; `none` where the command does not finish in the cycles that are pending.
`above` is what the host puts above the data in the last word. -/
def State.writeEeprom (s : State) (addr : Addr) (data : List Byte) (above : Nat → Byte) : State × Option (Except HostError Unit) :=
  if lengthInRange data.length then
    let (t, v) := (s.writeWords data above ((data.length + 3) / 4)).runCommand (.write addr data.length)
    (t, v.map fun w => resultOf w ())
  else (s, some (.error .outOfRange))

/-- R100 `readStatus()`: the status byte `s[15:8]` if `s[3:2] = 0`; `none` where the command does not finish in the cycles that
are pending. R100 does not say what it gives if `s[3:2]` is not 0: here the result code, as readEeprom does (DESIGN CHOICE,
unsafe for a claim about that answer, assumption log 26). -/
def State.readStatus (s : State) : State × Option (Except HostError Byte) :=
  let (t, v) := s.runCommand (.rdsr 0 0)
  (t, v.map fun w => resultOf w (w.extractLsb' 8 8))

end Sys2Proof.Machine
end

