-- ==== Sys2Proof/Machine/Step.lean ====
section
/-! DEFINITION. The step of the machine (spec/40_sequencer.md rules R120, R121, R141). -/

namespace Sys2Proof.Machine

/-- The next step. When the current cycle's host access writes a word to CMD, the word is decoded and the command it holds is
executed; a reserved word is issued too (R94), and the block finishes it with InvalidArgument. Every other step is one clock
cycle with the pending inputs, or with quiet ones where none is pending. DESIGN CHOICE, safe (assumption logs 1 and 2). -/
def step (s : State) : Host.Outcome State Fault Refusal :=
  match s.currentInputs.host.commandWord? with
  | none => .next s.advance
  | some w =>
    match decode w with
    | .ok i => exec i s
    | .error _ => .next (s.issue w)

/-- `s`, idle, with a cycle next in which the host writes the word `w` of `nbits` bits to CMD: the block's way to come by an
instruction (R34, R143; assumption log 9). -/
def State.withFetchWord (s : State) (nbits w : Nat) : State :=
  { s with st := .idle, pending := { CycleIn.quiet with host := hw 0x000 (tableWord nbits w) } :: s.pending }

end Sys2Proof.Machine
end

