-- ==== Sys2Proof/Machine/Assembler.lean ====
section
/-! DEFINITION. The assembler notation of spec/30_encoding.md rule R99: mnemonics in either case, numbers in decimal or `0x`
hexadecimal, operands refused out of their ranges. -/

namespace Sys2Proof.Machine

/-- The digit that a character stands for, in a base of at most 16. -/
def digitValue (base : Nat) (c : Char) : Option Nat :=
  let n := c.toNat
  let v :=
    if 48 ≤ n ∧ n ≤ 57 then some (n - 48)
    else if 97 ≤ n ∧ n ≤ 102 then some (n - 87)
    else if 65 ≤ n ∧ n ≤ 70 then some (n - 55)
    else none
  v.bind fun d => if d < base then some d else none

/-- Digits read from the most significant on, after the value `acc`. -/
def digitsValue (base acc : Nat) : List Char → Option Nat
  | [] => some acc
  | c :: cs => (digitValue base c).bind fun d => digitsValue base (acc * base + d) cs

/-- R99: a number in decimal or `0x` hexadecimal. -/
def numberValue : List Char → Option Nat
  | [] => none
  | '0' :: 'x' :: c :: cs => digitsValue 16 0 (c :: cs)
  | c :: cs => digitsValue 10 0 (c :: cs)

/-- Why an assembler refuses a line. -/
inductive AsmError where
  | unknownMnemonic
  | badOperands
  | badNumber
  | outOfRange
deriving DecidableEq, Repr

/-- R99: the operand range check. -/
def checkRange (v bound : Nat) : Except AsmError Nat := if v ≤ bound then .ok v else .error .outOfRange

/-- R99: an operand. -/
def operand (bound : Nat) (cs : List Char) : Except AsmError Nat :=
  match numberValue cs with
  | some v => checkRange v bound
  | none => .error .badNumber

/-- R99: one line, given as its mnemonic and its operands. -/
def assemble (mnemonic : List Char) (operands : List (List Char)) : Except AsmError Word :=
  let name := mnemonic.map Char.toUpper
  if name = ['R', 'E', 'A', 'D'] then
    match operands with
    | [a, l] => do return encode (.read (BitVec.ofNat 16 (← operand 0xFFFF a)) (← operand 0xFF l))
    | _ => .error .badOperands
  else if name = ['W', 'R', 'I', 'T', 'E'] then
    match operands with
    | [a, l] => do return encode (.write (BitVec.ofNat 16 (← operand 0xFFFF a)) (← operand 0xFF l))
    | _ => .error .badOperands
  else if name = ['W', 'R', 'E', 'N'] then
    match operands with
    | [] => .ok (encode (.wren 0 0))
    | _ => .error .badOperands
  else if name = ['W', 'R', 'D', 'I'] then
    match operands with
    | [] => .ok (encode (.wrdi 0 0))
    | _ => .error .badOperands
  else if name = ['R', 'D', 'S', 'R'] then
    match operands with
    | [] => .ok (encode (.rdsr 0 0))
    | _ => .error .badOperands
  else if name = ['W', 'R', 'S', 'R'] then
    match operands with
    | [v] => do return encode (.wrsr (BitVec.ofNat 8 (← operand 0xFF v)) 0)
    | _ => .error .badOperands
  else .error .unknownMnemonic

end Sys2Proof.Machine
end

