-- ==== Sys2Proof/Machine/Wire.lean ====
section
/-! DEFINITION. What the cycles of a log show on the wire: the byte exchanges and the frames (spec/20_memory.md rule R71,
spec/30_encoding.md rule R95, spec/40_sequencer.md rules R136 and R139). -/

namespace Sys2Proof.Machine

/-- One completed exchange (R38): the byte offered, the byte received, and whether it failed. -/
structure Exchange where
  tx : Byte
  rx : Byte
  err : Bool
deriving DecidableEq, Repr

/-- R71, R95: the bytes exchanged in one chip-select window. -/
abbrev Frame := List Exchange

/-- R38: the exchange that completes in a cycle, if one does: a byte is requested and the transport answers. `hasErr` is
TRANSPORT_HAS_ERR. -/
def CycleRecord.exchange? (hasErr : Bool) (r : CycleRecord) : Option Exchange :=
  if r.outputs.xferReq ∧ r.inputs.xferDone then
    r.outputs.xferTx.map fun b => ⟨b, r.inputs.xferRx, r.inputs.xferErr && hasErr⟩
  else none

/-- The exchanges of some cycles, in order. -/
def exchanges (hasErr : Bool) (rs : List CycleRecord) : List Exchange :=
  rs.filterMap (CycleRecord.exchange? hasErr)

/-- R136, R137: the frames that the block has opened in some cycles, `window` being the one that is open before the first of
them. Each maximal run of cycles with chip-select low is one frame; one that is still open at the end counts, because it has
been issued. (What a device takes for a frame, R71, is `Device.Cycle`'s: it acts on a window at the rising edge only.) -/
def framesFrom (hasErr : Bool) (window : Option Frame) : List CycleRecord → List Frame
  | [] => window.toList
  | r :: rs =>
    if r.outputs.csN then window.toList ++ framesFrom hasErr none rs
    else framesFrom hasErr (some (window.getD [] ++ (r.exchange? hasErr).toList)) rs

/-- R136: the frames of some cycles that begin with chip-select high. -/
def frames (hasErr : Bool) (rs : List CycleRecord) : List Frame := framesFrom hasErr none rs

/-- The bytes the block sent in a frame. -/
def Frame.sent (f : Frame) : List Byte := f.map Exchange.tx

/-- The bytes the block received in a frame. -/
def Frame.received (f : Frame) : List Byte := f.map Exchange.rx

/-- No exchange of the frame failed. -/
def Frame.unfailing (f : Frame) : Prop := ∀ e ∈ f, e.err = false

/-- What a device sees of one cycle: chip-select high; or chip-select low, with the exchange that completes in the cycle, if one
does, and whether a reset cuts the window off at the cycle's end (R230, R237). -/
inductive WireCycle where
  | high
  | low (exchange : Option Exchange) (cut : Bool)
deriving DecidableEq, Repr

/-- What a device sees of a cycle that has passed. -/
def CycleRecord.wire (hasErr : Bool) (r : CycleRecord) : WireCycle :=
  if r.outputs.csN then .high else .low (r.exchange? hasErr) r.inputs.rst

/-- The cycles that passed between a state and a later one: what the later log has beyond the earlier. -/
def elapsed (s t : State) : List CycleRecord := t.log.drop s.log.length

/-- The frames between a state and a later one. -/
def framesBetween (s t : State) : List Frame := frames s.build.transportHasErr (elapsed s t)

/-- The exchanges between a state and a later one. -/
def exchangesBetween (s t : State) : List Exchange := exchanges s.build.transportHasErr (elapsed s t)

/-- What a device sees between a state and a later one, one entry for each cycle. -/
def wireBetween (s t : State) : List WireCycle := (elapsed s t).map (CycleRecord.wire s.build.transportHasErr)

end Sys2Proof.Machine
end

