-- ==== Sys2Proof/Machine/Command.lean ====
section
/-! DEFINITION. The commands at command level: the pseudocode of spec/41_read_write.md rules R160 to R164 and
spec/42_control_status.md rules R180 to R184, over the answers of the transport. It is a second description of what Ops.lean
does cycle by cycle; `Obligations` says that the two agree. -/

namespace Sys2Proof.Machine

/-- What a command leaves for the host to see besides LAST_CMD and DONE: BUF, STAT.SR, POLLCNT and STAT.RESULT. -/
structure Visible where
  buf : Memory
  sr : Byte
  polls : BitVec 16
  result : ResultCode
deriving DecidableEq, Repr

/-- What a state shows the host. -/
def State.visible (s : State) : Visible where
  buf := s.buf
  sr := s.sr
  polls := s.polls
  result := s.result

/-- The transport's answer to one exchange: `(rx, err)` of `Xfer`. -/
structure Reply where
  rx : Byte
  err : Bool
deriving DecidableEq, Repr

/-- How a `Frame(fk)` of the pseudocode ends: with the bytes received and the answers left, with BusFault, or not at all,
because the transport has not answered yet. -/
inductive FrameEnd where
  | complete (rx : List Byte) (rest : List Reply)
  | busFault
  | unfinished
deriving DecidableEq, Repr

/-- `Frame(fk)` for a frame of `n` bytes: `n` exchanges, ended by the first that fails. -/
def runFrame (n : Nat) (rs : List Reply) : FrameEnd :=
  match n, rs with
  | 0, rs => .complete [] rs
  | _ + 1, [] => .unfinished
  | n + 1, r :: rs =>
    if r.err then .busFault
    else match runFrame n rs with
      | .complete rx rest => .complete (r.rx :: rx) rest
      | e => e

/-- R122: LEN is from 1 to BUF_BYTES. -/
def lenLegal (b : Build) (len : Nat) : Bool := decide (1 ≤ len) && decide (len ≤ b.bufBytes)

/-- R160, R161: READ. `none`: not finished. -/
def readCommand (b : Build) (len : Nat) (rs : List Reply) (v : Visible) : Option Visible :=
  if lenLegal b len then
    match runFrame (3 + len) rs with
    | .complete rx _ => some { v with polls := 0, result := .ok, buf := v.buf.store 0 (rx.drop 3) }
    | .busFault => some { v with polls := 0, result := .busFault }
    | .unfinished => none
  else some { v with polls := 0, result := .invalidArgument }

/-- R164: `PollUntilIdle()`, with `left` of the POLLCFG.LIMIT polls still allowed. -/
def pollUntilIdle (left : Nat) (rs : List Reply) (v : Visible) : Option Visible :=
  match left with
  | 0 => some { v with result := .timeout }
  | left + 1 =>
    match runFrame 2 rs with
    | .complete rx rest =>
      let v := { v with sr := rx.getD 1 0, polls := v.polls + 1 }
      if writeInProgress v.sr then pollUntilIdle left rest v else some { v with result := .ok }
    | .busFault => some { v with result := .busFault }
    | .unfinished => none

/-- R162, R163: WRITE, under the policy `p` and the poll bound `limit`. The FIXED_DELAY wait exchanges nothing and cannot
fail. -/
def writeCommand (b : Build) (p : Policy) (limit : BitVec 16) (len : Nat) (rs : List Reply) (v : Visible) : Option Visible :=
  if lenLegal b len then
    match runFrame 1 rs with
    | .complete _ rs =>
      match runFrame (3 + len) rs with
      | .complete _ rs =>
        match p with
        | .fixedDelay => some { v with polls := 0, result := .ok }
        | .pollStatus => pollUntilIdle limit.toNat rs { v with polls := 0 }
      | .busFault => some { v with polls := 0, result := .busFault }
      | .unfinished => none
    | .busFault => some { v with polls := 0, result := .busFault }
    | .unfinished => none
  else some { v with polls := 0, result := .invalidArgument }

/-- R180, R181, R184: a command that sends one frame of `n` bytes and keeps nothing of what it receives. -/
def sendCommand (n : Nat) (rs : List Reply) (v : Visible) : Option Visible :=
  match runFrame n rs with
  | .complete _ _ => some { v with polls := 0, result := .ok }
  | .busFault => some { v with polls := 0, result := .busFault }
  | .unfinished => none

/-- R182: RDSR. -/
def rdsrCommand (rs : List Reply) (v : Visible) : Option Visible :=
  match runFrame 2 rs with
  | .complete rx _ => some { v with polls := 0, result := .ok, sr := rx.getD 1 0 }
  | .busFault => some { v with polls := 0, result := .busFault }
  | .unfinished => none

/-- The command-level meaning of every command, in the configuration of `s`, on the transport's answers `rs`. -/
def commandResult (s : State) (rs : List Reply) : Instr → Option Visible
  | .read _ len => readCommand s.build len rs s.visible
  | .write _ len => writeCommand s.build s.policy s.limit len rs s.visible
  | .wren _ _ => sendCommand 1 rs s.visible
  | .wrdi _ _ => sendCommand 1 rs s.visible
  | .rdsr _ _ => rdsrCommand rs s.visible
  | .wrsr _ _ => sendCommand 2 rs s.visible

/-- The transport's answers between a state and a later one. -/
def repliesBetween (s t : State) : List Reply :=
  (exchangesBetween s t).map fun e => ⟨e.rx, e.err⟩

end Sys2Proof.Machine
end

