-- ==== Sys2Proof/Machine/Device.lean ====
section
/-! DEFINITION. The EEPROM device, as far as the spec states it (spec/20_memory.md rules R70 to R79), cycle by cycle over what it
sees of the wire. It is no part of the block and no step reads it: a statement about the device's contents takes `Device.Run`
as a premise. What R66, R77 to R79 and R237 leave open is open here (assumption log 13). -/

namespace Sys2Proof.Machine

/-- R71: a chip-select window that a device has seen open: the exchanges so far, whether the device was in a write cycle in some
cycle of it (R79), and whether a reset has cut it off (R237). -/
structure Window where
  exchanges : Frame
  busySeen : Bool
  cut : Bool
deriving DecidableEq, Repr

/-- What the spec lets one say of a device: the write-enable latch (R72), the write in progress with the cycles it has taken so
far (R75, R76), the array (R74), and the window that is open (R71). -/
structure Device where
  latch : Bool
  writing : Option Nat
  array : Memory
  window : Option Window
deriving DecidableEq, Repr

/-- The device parameters of R10 and R79 that the stated behaviour depends on. -/
structure DeviceParams where
  /-- DEV_ADDR_BITS: the number of addresses of the array. -/
  topAddr : Nat
  /-- DEV_PAGE_BYTES: which page an address lies in. The spec gives a page size, itself open, and neither where the boundaries lie
  nor which sizes are legal; any division of the addresses into pages is admitted. DESIGN CHOICE, safe (assumption log 24). -/
  pageOf : Nat → Nat
  /-- DEV_WRITE_TIME in cycles, `none` for a device whose writes need not end (R76). -/
  writeTime : Option Nat

/-- R79, R165: `n` addresses from `a` on lie below the device's top address. -/
def DeviceParams.inArray (p : DeviceParams) (a n : Nat) : Prop := a + n ≤ p.topAddr

/-- R79, R165: `n` addresses from `a` on lie below the device's top address and inside one page. -/
def DeviceParams.inRange (p : DeviceParams) (a n : Nat) : Prop :=
  p.inArray a n ∧ ∀ i, i < n → p.pageOf (a + i) = p.pageOf a

/-- R75: a write is in progress. -/
def Device.busy (d : Device) : Bool := d.writing.isSome

/-- The array with bytes written from an address on (R73). -/
def Device.storeAt (d : Device) (a : Nat) (bytes : List Byte) : Memory := d.array.store a bytes

/-- The address that two address bytes give (R61, R91). -/
def wireAddr (ah al : Byte) : Nat := (ah ++ al).toNat

/-- R66, R237: the window holds a whole frame, neither failed nor cut off. -/
def Window.whole (w : Window) : Prop := w.cut = false ∧ w.exchanges.unfailing

/-- R76: the device through the time of one cycle. A write may complete in any cycle, and it does so at the latest when it has
taken the device's write time. -/
inductive Device.Passes (p : DeviceParams) : Device → Device → Prop where
  | still (d : Device) : d.writing = none → Passes p d d
  | completes (d : Device) (k : Nat) : d.writing = some k → Passes p d { d with writing := none }
  | goesOn (d : Device) (k : Nat) : d.writing = some k → (∀ n, p.writeTime = some n → k + 1 < n) →
      Passes p d { d with writing := some (k + 1) }

/-- R74, R75, R78: what an exchange that does not fail may bring, by the window so far; `busyNow` is whether the device is in a
write cycle in some part of this cycle. Whatever becomes of the frame later:
bit 0 of the byte that follows an RDSR opcode says whether a write is in progress;
the byte for the k-th dummy byte of a READ that has met no write cycle (R79) is the array byte at ADDR + k, as long as the READ has
neither left its page nor passed the top address (that the bytes before it does are R74's is DEDUCED, assumption log 25).
Every other byte is open. -/
def Device.mayBring (d : Device) (p : DeviceParams) (busyNow : Bool) (e : Exchange) : Prop :=
  ∀ w, d.window = some w → w.whole → e.err = false →
    (w.exchanges.sent = [opcRdsr] → writeInProgress e.rx = d.busy) ∧
    ∀ ah al dummies, w.exchanges.sent = opcRead :: ah :: al :: dummies → w.busySeen = false → busyNow = false →
      p.inRange (wireAddr ah al) (dummies.length + 1) → e.rx = d.array.read (wireAddr ah al + dummies.length)

/-- R71: what a device may do at the rising edge that closes a window. `d` is the device with no window. A whole frame to a device
that is not in a write cycle does what R72 to R75 state. That WREN, READ, RDSR and WRDI leave the array and the write cycle alone
is DEDUCED (assumption log 23): R73 alone has a frame write, and by R76 what was written is read back from then on. What READ and
RDSR do to the latch no rule says, and it is open. -/
inductive Device.Acts (p : DeviceParams) (d : Device) (w : Window) : Device → Prop where
  /-- R72: a frame holding WREN alone sets the latch. -/
  | wren : w.whole → w.busySeen = false → w.exchanges.sent = [opcWren] → Acts p d w { d with latch := true }
  /-- R73: a WRITE frame without the latch has no effect. -/
  | writeIgnored (rest : List Byte) :
      w.whole → w.busySeen = false → w.exchanges.sent = opcWrite :: rest → d.latch = false → Acts p d w d
  /-- R73: a WRITE frame with the latch starts the write of its data bytes; whether it clears the latch is open (R77). The
  array is shown as it is after the commit: nothing that the spec states reads it before (R79). -/
  | writeStarts (ah al : Byte) (data : List Byte) (latch : Bool) :
      w.whole → w.busySeen = false → w.exchanges.sent = opcWrite :: ah :: al :: data → d.latch = true → 0 < data.length →
      p.inRange (wireAddr ah al) data.length →
      Acts p d w { d with latch := latch, writing := some 0, array := d.storeAt (wireAddr ah al) data }
  /-- R79, 93_implementation_defined.md row 18: what a WRITE that leaves its page or the array, or that holds no data, does is
  open. -/
  | writeOpen (e : Device) (rest : List Byte) :
      w.exchanges.sent = opcWrite :: rest → d.latch = true → e.window = none →
      (∀ ah al data, rest = ah :: al :: data → 0 < data.length → ¬ p.inRange (wireAddr ah al) data.length) → Acts p d w e
  /-- R74: a READ frame below the top address; its bytes are settled by `Device.mayBring`. -/
  | read (ah al : Byte) (dummies : List Byte) (latch : Bool) :
      w.whole → w.busySeen = false → w.exchanges.sent = opcRead :: ah :: al :: dummies →
      p.inArray (wireAddr ah al) dummies.length → Acts p d w { d with latch := latch }
  /-- R79: what a READ past the top address returns and does is open; one that holds no address is of no shape that a rule
  names. -/
  | readOpen (e : Device) (rest : List Byte) :
      w.exchanges.sent = opcRead :: rest → e.window = none →
      (∀ ah al dummies, rest = ah :: al :: dummies → ¬ p.inArray (wireAddr ah al) dummies.length) → Acts p d w e
  /-- R75: an RDSR frame; its status byte is settled by `Device.mayBring`. -/
  | status (dummy : Byte) (latch : Bool) : w.whole → w.exchanges.sent = [opcRdsr, dummy] → Acts p d w { d with latch := latch }
  /-- R77, 93_implementation_defined.md row 19: what WRDI does to the latch is open. -/
  | wrdi (latch : Bool) (rest : List Byte) :
      w.whole → w.busySeen = false → w.exchanges.sent = opcWrdi :: rest → Acts p d w { d with latch := latch }
  /-- R77, R184, 93_implementation_defined.md row 19: what WRSR does to the latch and to the status register is open, and whether
  it starts a write cycle. -/
  | wrsr (latch : Bool) (writing : Option Nat) (rest : List Byte) :
      w.whole → w.busySeen = false → w.exchanges.sent = opcWrsr :: rest →
      Acts p d w { d with latch := latch, writing := writing }
  /-- R79, 93_implementation_defined.md row 17: what any frame but RDSR does while a write is in progress is open. -/
  | busyOpen (e : Device) :
      w.busySeen = true → w.exchanges.sent.head? ≠ some opcRdsr → e.window = none → Acts p d w e
  /-- R66, R237, 93_implementation_defined.md row 16: what a frame that a fault or a reset broke off does is open. -/
  | partialOpen (e : Device) : ¬ w.whole → e.window = none → Acts p d w e
  /-- R70: what a whole frame of a shape that no rule names does is open; the block sends none. -/
  | otherOpen (e : Device) :
      (w.exchanges.sent = [] ∨ ∃ opc rest, w.exchanges.sent = opc :: rest ∧
        ((opc = opcWren ∧ rest ≠ []) ∨ (opc = opcRdsr ∧ rest.length ≠ 1) ∨
          opc ∉ [opcWrsr, opcWrite, opcRead, opcWrdi, opcRdsr, opcWren])) →
      e.window = none → Acts p d w e

/-- The window that is open with chip-select low: the one so far, or a new one at the falling edge (R71). -/
def Device.openWindow (d : Device) : Window := d.window.getD ⟨[], false, false⟩

/-- The device with one more low cycle in its window. -/
def Device.extend (d : Device) (busySeen : Bool) (exchange : Option Exchange) (cut : Bool) : Device :=
  { d with
    window := some ⟨d.openWindow.exchanges ++ exchange.toList, d.openWindow.busySeen || busySeen, d.openWindow.cut || cut⟩ }

/-- R71: a device through one cycle of the wire. -/
inductive Device.Cycle (p : DeviceParams) : Device → WireCycle → Device → Prop where
  /-- Chip-select stays high. -/
  | high (d e : Device) : d.window = none → Device.Passes p d e → Cycle p d .high e
  /-- Chip-select has risen: the device acts on the window that closes. -/
  | rises (d e f : Device) (w : Window) :
      d.window = some w → Device.Acts p { d with window := none } w e → Device.Passes p e f → Cycle p d .high f
  /-- Chip-select is low. -/
  | low (d e : Device) (exchange : Option Exchange) (cut : Bool) :
      Device.Passes p d e → (∀ x, exchange = some x → e.mayBring p (d.busy || e.busy) x) →
      Cycle p d (.low exchange cut) (e.extend (d.busy || e.busy) exchange cut)

/-- R71, R76: a device through the cycles of the wire. DESIGN CHOICE, safe (assumption log 20): the device's power-up, whose time
R79 leaves open and R233 has the host wait out, is over when a run begins, so that R72 to R75 hold from its first cycle on. -/
inductive Device.Run (p : DeviceParams) : Device → List WireCycle → Device → Prop where
  | nil (d : Device) : Run p d [] d
  | cons (d e f : Device) (c : WireCycle) (cs : List WireCycle) :
      Device.Cycle p d c e → Run p e cs f → Run p d (c :: cs) f

/-- R165: the frame leaves the array as it is, by what the spec states: it is whole (93_implementation_defined.md row 16), it is no
WRITE and no WRSR, and a READ stays below the top address (R79); a READ may cross pages. -/
def Frame.harmless (p : DeviceParams) (f : Frame) : Prop :=
  f.unfailing ∧
    (f.sent = [opcWren] ∨ f.sent = [opcWrdi] ∨ (∃ dummy, f.sent = [opcRdsr, dummy]) ∨
      ∃ ah al dummies, f.sent = opcRead :: ah :: al :: dummies ∧ p.inArray (wireAddr ah al) dummies.length)

end Sys2Proof.Machine
end

