-- ==== Sys2Proof/Safety.lean ====
section
/-! DEFINITION. What the claims speak of: the environment's good behaviour over some cycles, and the invariant of the block. -/

namespace Sys2Proof.Machine

/-! ### Inputs -/

/-- A cycle without reset and without host access. What the transport does is open. -/
def CycleIn.calm (x : CycleIn) : Bool := !x.rst && decide (x.host = .nothing)

/-- `n` calm cycles. -/
def calmCycles (n : Nat) (xs : List CycleIn) : Prop := xs.length = n ∧ ∀ x ∈ xs, x.calm = true

/-- The calm cycles of the XFER state in which the transport exchanges exactly the bytes `rx`, none with an error, each after
any number of cycles, the last one in the last cycle (R38, R125). -/
def serves (rx : List Byte) : List CycleIn → Bool
  | [] => rx.isEmpty
  | x :: xs =>
    x.calm && match rx with
      | [] => false
      | b :: bs =>
        if x.xferDone then !x.xferErr && decide (x.xferRx = b) && serves bs xs else serves (b :: bs) xs

/-- The cycles of one whole frame (R136): ASSERT, the exchanges that bring the bytes `rx`, and `gap` cycles of GAP. -/
def frameCycles (gap : Nat) (rx : List Byte) (xs : List CycleIn) : Prop :=
  ∃ a ys g, xs = a :: (ys ++ g) ∧ a.calm = true ∧ serves rx ys = true ∧ calmCycles gap g

/-- The cycles of one frame that breaks off (R128, R131): ASSERT, exchanges that bring the bytes `rx`, one that fails, and
`gap` cycles of GAP. -/
def brokenFrameCycles (gap : Nat) (rx : List Byte) (xs : List CycleIn) : Prop :=
  ∃ a ys ws e g, xs = a :: (ys ++ ws ++ e :: g) ∧ a.calm = true ∧ serves rx ys = true ∧
    (∀ w ∈ ws, w.calm = true ∧ w.xferDone = false) ∧ e.calm = true ∧ e.xferDone = true ∧ e.xferErr = true ∧ calmCycles gap g

/-- The cycles of the polls of a WRITE (R164) that bring the status bytes `statuses`, one each: whole frames, and between
two of them `pollGap` cycles of PGAP. -/
def pollCycles (gap pollGap : Nat) : List Byte → List CycleIn → Prop
  | [], xs => xs = []
  | [b], xs => ∃ b0, frameCycles gap [b0, b] xs
  | b :: bs, xs => ∃ b0 fr d rest, xs = fr ++ d ++ rest ∧ frameCycles gap [b0, b] fr ∧ calmCycles pollGap d ∧
      pollCycles gap pollGap bs rest

/-- No cycle of a list resets the block. -/
def noReset (xs : List CycleIn) : Prop := ∀ x ∈ xs, x.rst = false

/-- The cycles of the wait after a WRITE's data frame that ends with Ok (R163, R164), under the policy and the configuration of
`s`. -/
def waitCycles (s : State) (xs : List CycleIn) : Prop :=
  (s.policy = .fixedDelay ∧ calmCycles s.wdelay.toNat xs) ∨
  (s.policy = .pollStatus ∧ ∃ waiting last, pollCycles s.build.csGap.toNat s.pollGap.toNat (waiting ++ [last]) xs ∧
    (∀ b ∈ waiting, b.getLsbD 0 = true) ∧ last.getLsbD 0 = false ∧ waiting.length + 1 ≤ s.limit.toNat)

/-! ### Runs -/

/-- The states that some number of steps leads to. -/
inductive Reaches (s : State) : State → Prop where
  | refl : Reaches s s
  | more (t u : State) : Reaches s t → step t = .next u → Reaches s u

/-! ### The invariant -/

/-- Every listed index of a buffer lies below BUF_BYTES. -/
def Memory.Below (n : Nat) (m : Memory) : Prop := ∀ c ∈ m, c.1 < n

/-- The frame kinds that a command issues (R93, R123, R130). -/
def frameOf (opc : Byte) (fk : FrameKind) : Prop :=
  (opc = opcRead ∧ fk = .read) ∨ (opc = opcWrite ∧ (fk = .wren ∨ fk = .write ∨ fk = .poll)) ∨ (opc = opcWren ∧ fk = .wren) ∨
    (opc = opcWrdi ∧ fk = .wrdi) ∨ (opc = opcRdsr ∧ fk = .rdsr) ∨ (opc = opcWrsr ∧ fk = .wrsr)

/-- The states in which a frame is open, or has closed and is not yet answered for. -/
def SeqState.inFrame : SeqState → Bool
  | .assert | .xfer | .gap | .delay | .pgap => true
  | .idle | .check | .finish => false

/-- The invariant of the block. -/
structure Inv (s : State) : Prop where
  /-- R9: the build is legal. -/
  legal : s.build.Legal
  /-- BUF and STAGE keep their canonical form and hold no byte at or above BUF_BYTES (R37, R41). -/
  bufWf : s.buf.wf
  bufBelow : s.buf.Below s.build.bufBytes
  stageWf : s.stage.wf
  stageBelow : s.stage.Below s.build.bufBytes
  /-- R29: LIMIT is never 0. -/
  limitPos : s.limit ≠ 0
  /-- R35: DONE and RESULT read 0 while a command runs. -/
  busyResult : s.st ≠ .idle → s.done = false ∧ s.result = .ok
  /-- R122, R123, R130: a frame is open only for a valid command, and it is a frame of that command. -/
  frameValid : s.st.inFrame → s.validCommand ∧ frameOf s.curOpc s.fk
  /-- R24, R97: the current slot exists. -/
  slot : s.st = .xfer → s.si.toNat < s.flen s.fk
  /-- R26: no abort is pending but in GAP and FINISH, and `res` says what has happened. -/
  noAbort : s.st = .check ∨ s.st = .assert ∨ s.st = .xfer ∨ s.st = .delay ∨ s.st = .pgap → s.abort = false ∧ s.res = .ok
  gapAbort : s.st = .gap → (s.abort = false ∧ s.res = .ok) ∨ (s.abort = true ∧ s.res = .busFault)
  /-- R26, R142: `polls` does not pass LIMIT while a command runs, and is below it where a poll may still be counted. -/
  pollsBound : s.st ≠ .idle → s.polls ≤ s.limit
  pollsBelow : s.st = .check ∨ s.st = .assert ∨ s.st = .xfer ∨ s.st = .pgap ∨ (s.st = .gap ∧ s.fk ≠ .poll) → s.polls < s.limit
  /-- R25, R129, R132, R133: the down-counter. -/
  gapCount : s.st = .gap → 1 ≤ s.cnt ∧ s.cnt ≤ s.build.csGap.setWidth 32
  delayCount : s.st = .delay → s.fk = .write ∧ 1 ≤ s.cnt ∧ s.cnt ≤ s.wdelay
  pgapCount : s.st = .pgap → s.fk = .poll ∧ 1 ≤ s.cnt ∧ s.cnt ≤ s.pollGap.setWidth 32

end Sys2Proof.Machine
end

