-- ==== Sys2Proof/Certificates/Slice0/Obligations.lean ====
section
/-! DEFINITION. The statements about the model, for the provers. Rule numbers are those of spec/. -/

open Sys2Proof Sys2Proof.Machine

/-! ### The command word -/

/-- R90, R93: every well-formed command is read back from its word, with every operand. -/
def Obligations.DecodeOfEncodeIsTheCommand : Prop :=
  ∀ i : Instr, i.WellFormed → decode (encode i) = .ok i

/-- R90, R93, R94: a decoded command is well formed and its word is the word it was decoded from, ignored fields too. -/
def Obligations.EncodeOfDecodeIsTheWord : Prop :=
  ∀ (w : Word) (i : Instr), decode w = .ok i → i.WellFormed ∧ encode i = w

/-- R93, R94: the match is on bits [7:0] alone, and every OPC but the six is refused by the decoder. -/
def Obligations.OpcodeFieldSelectsTheCommand : Prop :=
  ∀ w : Word, let opc := w.extractLsb' 0 8
    (opc = 0x03 → decode w = .ok (.read (w.extractLsb' 8 16) (w.extractLsb' 24 8).toNat)) ∧
    (opc = 0x02 → decode w = .ok (.write (w.extractLsb' 8 16) (w.extractLsb' 24 8).toNat)) ∧
    (opc = 0x06 → decode w = .ok (.wren (w.extractLsb' 8 16) (w.extractLsb' 24 8))) ∧
    (opc = 0x04 → decode w = .ok (.wrdi (w.extractLsb' 8 16) (w.extractLsb' 24 8))) ∧
    (opc = 0x05 → decode w = .ok (.rdsr (w.extractLsb' 8 16) (w.extractLsb' 24 8))) ∧
    (opc = 0x01 → decode w = .ok (.wrsr (w.extractLsb' 24 8) (w.extractLsb' 8 16))) ∧
    (opc = 0x00 ∨ 0x07 ≤ opc → decode w = .error (.reservedOpcode opc))

/-- A few words of spec/95_test_vectors.md 2.1, bit by bit, decode to the commands they stand for. -/
def Obligations.SampleWordsDecode : Prop :=
  decode 0b00001010000000001111111100000011 = .ok (.read 0x00FF 10) ∧
  decode 0b00010000111111111111111100000010 = .ok (.write 0xFFFF 16) ∧
  decode 0b11111111111111111111111100000110 = .ok (.wren 0xFFFF 0xFF) ∧
  decode 0b00000000101010111100110100000100 = .ok (.wrdi 0xABCD 0x00) ∧
  decode 0b00010010001101000101011000000101 = .ok (.rdsr 0x3456 0x12) ∧
  decode 0b01111111000000001010101000000001 = .ok (.wrsr 0x7F 0x00AA) ∧
  decode 0b00001010000000001111111100010011 = .error (.reservedOpcode 0x13)

/-- R99: whatever the case of the mnemonic, an operand in range assembles to its place in the word, and an operand out of range is
refused. -/
def Obligations.AssemblerRangesAndWords : Prop :=
  (∀ m cs a ls l, m.map Char.toUpper = ['R', 'E', 'A', 'D'] → numberValue cs = some a → numberValue ls = some l →
    assemble m [cs, ls] =
      if a ≤ 0xFFFF ∧ l ≤ 0xFF then .ok (BitVec.ofNat 32 (l * 2 ^ 24 + a * 2 ^ 8 + 0x03)) else .error .outOfRange) ∧
  (∀ m cs a ls l, m.map Char.toUpper = ['W', 'R', 'I', 'T', 'E'] → numberValue cs = some a → numberValue ls = some l →
    assemble m [cs, ls] =
      if a ≤ 0xFFFF ∧ l ≤ 0xFF then .ok (BitVec.ofNat 32 (l * 2 ^ 24 + a * 2 ^ 8 + 0x02)) else .error .outOfRange) ∧
  (∀ m vs v, m.map Char.toUpper = ['W', 'R', 'S', 'R'] → numberValue vs = some v →
    assemble m [vs] = if v ≤ 0xFF then .ok (BitVec.ofNat 32 (v * 2 ^ 24 + 0x01)) else .error .outOfRange) ∧
  (∀ m, m.map Char.toUpper = ['W', 'R', 'E', 'N'] → assemble m [] = .ok 0x00000006) ∧
  (∀ m, m.map Char.toUpper = ['W', 'R', 'D', 'I'] → assemble m [] = .ok 0x00000004) ∧
  (∀ m, m.map Char.toUpper = ['R', 'D', 'S', 'R'] → assemble m [] = .ok 0x00000005)

/-! ### The step -/

/-- R34, R121: when the current cycle's host access writes to CMD a word that decodes to `i`, the step is `exec i`, in every
state of the block; nothing is added around it. The host's word as `withFetchWord` places it is run so, too. -/
def Obligations.StepRunsTheDecodedCommand : Prop :=
  (∀ (s : State) (x : CycleIn) (rest : List CycleIn) (w : Word) (i : Instr),
    s.pending = x :: rest → x.host = .write 0x000 4 w → decode w = .ok i → step s = exec i s) ∧
  (∀ (s : State) (w : Nat) (i : Instr), decodeTableWord 32 w = some i →
    step (s.withFetchWord 32 w) = exec i (s.withFetchWord 32 w))

/-- R120: a step is exactly one clock edge, unless an idle block accepts a command with further cycles pending: the state after the
edge, the cycle's inputs and outputs in the log, the other inputs still pending. With none pending it is the edge of a quiet cycle
(the model's choice, assumption log 2). -/
def Obligations.StepIsOneClockEdge : Prop :=
  (∀ (s : State) (x : CycleIn) (rest : List CycleIn), s.pending = x :: rest →
    rest = [] ∨ s.st ≠ .idle ∨ x.rst = true ∨ (∀ w, x.host ≠ .write 0x000 4 w) →
    step s = .next { s.edge x with log := s.log ++ [⟨x, s.outputs x⟩], pending := rest }) ∧
  (∀ s : State, s.pending = [] →
    step s = .next { s.edge CycleIn.quiet with log := s.log ++ [⟨CycleIn.quiet, s.outputs CycleIn.quiet⟩] })

/-- R205: no step ends in a fault or a refusal; the machine always has a next state. -/
def Obligations.EveryStepAnswersNext : Prop :=
  (∀ s : State, ∃ t, step s = .next t) ∧ ∀ (i : Instr) (s : State), ∃ t, exec i s = .next t

/-- Every step keeps the invariant of the block: canonical buffers within BUF_BYTES, LIMIT at least 1, DONE and RESULT 0
while busy, only frames of a valid command, an existing slot, bounded counters (R9, R24 to R26, R29, R35, R142). -/
def Obligations.StepKeepsTheInvariant : Prop :=
  ∀ s t : State, Inv s → step s = .next t → Inv t

/-- The state after reset meets the invariant. It rests on the reference build and the empty buffers of assumption logs 4 and
5. -/
def Obligations.ResetMeetsTheInvariant : Prop := Inv State.reset

/-- R230, R44: in a cycle with `rst = 1` every element takes its reset value, BUF and STAGE stay, and no other input of the
cycle matters. -/
def Obligations.ResetCycleGivesResetValues : Prop :=
  ∀ (s : State) (x : CycleIn) (rest : List CycleIn), s.pending = x :: rest → x.rst = true →
    ∃ t, step s = .next t ∧ t.st = .idle ∧ t.lastCmd = 0x00000000 ∧ t.fk = .wren ∧ t.si = 0 ∧ t.cnt = 0 ∧ t.abort = false ∧
      t.res.code = 0 ∧ t.polls = 0 ∧ t.done = false ∧ t.result.code = 0 ∧ t.drop = false ∧ t.sr = 0x00 ∧
      t.policy = .pollStatus ∧ t.wdelay = s.build.writeDelayRst ∧ t.limit = s.build.pollLimitRst ∧
      t.pollGap = s.build.pollGapRst ∧ t.buf = s.buf ∧ t.stage = s.stage ∧ t.build = s.build ∧ t.pending = rest ∧
      t.csN = true ∧ t.holdN = true ∧ t.xferReq = false

/-! ### The host port -/

/-- R30, R31: an access is answered with AccessError exactly when it is not 32 bits wide, not aligned, or at an unmapped
offset; it then changes nothing: the edge is the edge of a cycle without the access. -/
def Obligations.AccessErrorChangesNothing : Prop :=
  ∀ (s : State) (off : BitVec 9) (size : Nat) (v : Word) (a : HostAccess), a = .read off size ∨ a = .write off size v →
    (s.respond a = some .accessError ↔
      (size ≠ 4 ∨ off.toNat % 4 ≠ 0 ∨ (0x018 ≤ off.toNat ∧ off.toNat < 0x100) ∨
        0x100 + 4 * ((s.build.bufBytes + 3) / 4) ≤ off.toNat)) ∧
    (s.respond a = some .accessError → ∀ x : CycleIn, x.host = a → s.edge x = s.edge { x with host := .nothing })

/-- R32: a read answers with the register's value in its cycle, and has no side effect. (What is answered in a reset cycle is the
model's reading, assumption log 12, and not claimed.) -/
def Obligations.HostReadHasNoSideEffect : Prop :=
  ∀ (s : State) (x : CycleIn) (off : BitVec 9) (size : Nat), x.host = .read off size →
    (x.rst = false → ∀ r, hostTarget s.build off size = some r → (s.outputs x).response = some (.data (s.readReg r))) ∧
    s.edge x = s.edge { x with host := .nothing }

/-- R27 to R30, R34 to R37: what a 32-bit read answers at each offset of the map. -/
def Obligations.RegisterMapReads : Prop :=
  ∀ s : State,
    s.respond (.read 0x000 4) = some (.data s.lastCmd) ∧
    s.respond (.read 0x004 4) = some (.data s.statWord) ∧
    s.respond (.read 0x008 4) = some (.data (if s.policy = .pollStatus then 1 else 0)) ∧
    s.respond (.read 0x00C 4) = some (.data s.wdelay) ∧
    s.respond (.read 0x010 4) = some (.data (BitVec.ofNat 32 (s.pollGap.toNat * 2 ^ 16 + s.limit.toNat))) ∧
    s.respond (.read 0x014 4) = some (.data (s.polls.setWidth 32)) ∧
    ∀ k : Nat, k < (s.build.bufBytes + 3) / 4 → k < 64 →
      ∃ v, s.respond (.read (BitVec.ofNat 9 (0x100 + 4 * k)) 4) = some (.data v) ∧
        ∀ j : Nat, j < 4 → v.extractLsb' (8 * j) 8 = if 4 * k + j < s.build.bufBytes then s.buf.read (4 * k + j) else 0

/-- R35: the fields of the STAT word, the derived and the constant ones among them. -/
def Obligations.StatWordFields : Prop :=
  ∀ s : State, let v := s.statWord
    v.getLsbD 0 = decide (s.st ≠ .idle) ∧ v.getLsbD 1 = s.done ∧ v.extractLsb' 2 2 = s.result.code ∧
    v.getLsbD 4 = s.drop ∧ v.getLsbD 5 = !s.csN ∧ v.getLsbD 6 = true ∧ v.getLsbD 7 = false ∧
    v.extractLsb' 8 8 = s.sr ∧ v.getLsbD 16 = s.sr.getLsbD 0 ∧ v.extractLsb' 17 15 = 0

/-- R27, R28, R29: what a write of CFG, WDELAY or POLLCFG does to an idle block, and nothing else. -/
def Obligations.IdleConfigurationWrites : Prop :=
  ∀ (s : State) (x : CycleIn) (v : Word), s.st = .idle → x.rst = false →
    (x.host = .write 0x008 4 v → s.edge x = { s with policy := if v.getLsbD 0 then .pollStatus else .fixedDelay }) ∧
    (x.host = .write 0x00C 4 v → s.edge x = { s with wdelay := v }) ∧
    (x.host = .write 0x010 4 v → s.edge x =
      { s with
        limit := if v.toNat % 2 ^ 16 = 0 then 1 else BitVec.ofNat 16 v.toNat
        pollGap := BitVec.ofNat 16 (v.toNat / 2 ^ 16) })

/-- R37, R63: a write of BUF word `k` to an idle block stores its four bytes little-endian, those below BUF_BYTES, and changes
no other byte and nothing else. -/
def Obligations.IdleBufWrite : Prop :=
  ∀ (s : State) (x : CycleIn) (k : Nat) (v : Word), s.st = .idle → x.rst = false → s.buf.wf → k < 64 →
    k < (s.build.bufBytes + 3) / 4 → x.host = .write (BitVec.ofNat 9 (0x100 + 4 * k)) 4 v →
    (∀ i : Nat, (s.edge x).buf.read i =
      if i / 4 = k ∧ i < s.build.bufBytes then v.extractLsb' (8 * (i % 4)) 8 else s.buf.read i) ∧
    (s.edge x).buf.wf ∧ { s.edge x with buf := s.buf } = s

/-- R33: a host write is performed while the block is idle and dropped, with DROP set, while it is busy; STAT and POLLCNT
ignore it in either case. Whatever the write, the FSM transition of the cycle is that of a cycle without it. -/
def Obligations.HostWritePerformedOrDropped : Prop :=
  ∀ (s : State) (x : CycleIn) (off : BitVec 9) (v : Word) (r : HostReg), x.rst = false → x.host = .write off 4 v →
    hostReg s.build off = some r →
    (s.st = .idle → s.edge x = s.writeReg v r) ∧
    (s.st ≠ .idle → r ≠ .stat → r ≠ .pollcnt → s.edge x = { s.edge { x with host := .nothing } with drop := true }) ∧
    (r = .stat ∨ r = .pollcnt → s.edge x = s.edge { x with host := .nothing }) ∧
    (s.outputs x).response = some .written

/-! ### The transitions, one by one -/

/-- R121: acceptance of a command word, and nothing else leads out of IDLE but reset, which leads into it. -/
def Obligations.AcceptanceIsTheWayOutOfIdle : Prop :=
  ∀ (s : State) (x : CycleIn), s.st = .idle → x.rst = false →
    (∀ w, x.host = .write 0x000 4 w → s.edge x =
      { s with lastCmd := w, done := false, result := .ok, drop := false, abort := false, res := .ok, polls := 0, st := .check }) ∧
    (x.host = .nothing → s.edge x = s) ∧
    ((∀ w, x.host ≠ .write 0x000 4 w) → (s.edge x).st = .idle ∧ (s.edge x).lastCmd = s.lastCmd)

/-- R122, R123: CHECK sends an invalid command to FINISH with InvalidArgument and opens a valid command's first frame. -/
def Obligations.CheckValidatesTheCommand : Prop :=
  ∀ (s : State) (x : CycleIn), s.st = .check → x.calm →
    let opc := (s.lastCmd.extractLsb' 0 8).toNat
    let len := (s.lastCmd.extractLsb' 24 8).toNat
    let valid := 1 ≤ opc ∧ opc ≤ 6 ∧ (opc = 2 ∨ opc = 3 → 1 ≤ len ∧ len ≤ s.build.bufBytes)
    s.csN = true ∧
    (¬ valid → s.edge x = { s with res := .invalidArgument, st := .finish } ∧ (s.edge x).csN = true) ∧
    (valid → opc = 3 → s.edge x = { s with fk := .read, st := .assert }) ∧
    (valid → opc = 2 → s.edge x = { s with fk := .wren, st := .assert }) ∧
    (valid → opc = 6 → s.edge x = { s with fk := .wren, st := .assert }) ∧
    (valid → opc = 4 → s.edge x = { s with fk := .wrdi, st := .assert }) ∧
    (valid → opc = 5 → s.edge x = { s with fk := .rdsr, st := .assert }) ∧
    (valid → opc = 1 → s.edge x = { s with fk := .wrsr, st := .assert })

/-- R124, R125: ASSERT asserts chip-select for one cycle without offering a byte; XFER offers the byte of the current slot and
waits for the transport as long as it takes. -/
def Obligations.AssertThenOfferAndWait : Prop :=
  ∀ (s : State) (x : CycleIn), x.calm →
    (s.st = .assert → s.csN = false ∧ s.xferReq = false ∧ s.edge x = { s with si := 0, st := .xfer }) ∧
    (s.st = .xfer → s.csN = false ∧ s.xferReq = true ∧ (s.outputs x).xferTx = s.txByte s.fk s.si.toNat ∧
      (x.xferDone = false → s.edge x = s))

/-- R126: a byte that completes and is not the frame's last is captured, and the next slot is offered. -/
def Obligations.ByteCompletesNotTheLast : Prop :=
  ∀ (s : State) (x : CycleIn), s.st = .xfer → x.calm → x.xferDone = true → (x.xferErr && s.build.transportHasErr) = false →
    s.si.toNat < s.flen s.fk - 1 →
    s.edge x = { s.capture s.fk s.si.toNat x.xferRx with si := s.si + 1 } ∧ (s.edge x).st = .xfer ∧
    ∀ y : CycleIn, ((s.edge x).outputs y).xferTx = s.txByte s.fk (s.si.toNat + 1)

/-- R127: the frame's last byte is captured and the frame closes; a READ's data reach BUF at this edge, a poll is counted at
this edge. -/
def Obligations.LastByteClosesTheFrame : Prop :=
  ∀ (s : State) (x : CycleIn), Inv s → s.st = .xfer → x.calm → x.xferDone = true →
    (x.xferErr && s.build.transportHasErr) = false → s.si.toNat = s.flen s.fk - 1 →
    let c := s.capture s.fk s.si.toNat x.xferRx
    let t := s.edge x
    t.st = .gap ∧ t.csN = true ∧ t.cnt.toNat = s.build.csGap.toNat ∧ t.stage = c.stage ∧ t.sr = c.sr ∧
    t.polls = (if s.fk = .poll then s.polls + 1 else s.polls) ∧
    (∀ i : Nat, t.buf.read i = if s.fk = .read ∧ i < s.curArg.toNat then c.stage.read i else s.buf.read i) ∧
    { t with st := s.st, cnt := s.cnt, stage := s.stage, sr := s.sr, polls := s.polls, buf := s.buf } = s

/-- R128, R38: an exchange that fails aborts the command and releases chip-select, whatever the slot; its byte is not captured.
With TRANSPORT_HAS_ERR false an exchange never fails. -/
def Obligations.FailedByteAborts : Prop :=
  ∀ (s : State) (x : CycleIn), s.st = .xfer → x.calm → x.xferDone = true → x.xferErr = true →
    (s.build.transportHasErr = true →
      s.edge x = { s with abort := true, res := .busFault, cnt := s.build.csGap.setWidth 32, st := .gap } ∧
      (s.edge x).csN = true) ∧
    (s.build.transportHasErr = false → s.edge x = s.edge { x with xferErr := false } ∧ (s.edge x).abort = s.abort)

/-- R97: the framer, slot by slot; it is defined below `flen` alone, and depends on LAST_CMD and BUF alone. -/
def Obligations.FramerBytes : Prop :=
  ∀ s : State,
    s.txByte .wren 0 = some 0x06 ∧ s.txByte .wrdi 0 = some 0x04 ∧
    s.txByte .rdsr 0 = some 0x05 ∧ s.txByte .rdsr 1 = some 0x00 ∧
    s.txByte .poll 0 = some 0x05 ∧ s.txByte .poll 1 = some 0x00 ∧
    s.txByte .wrsr 0 = some 0x01 ∧ s.txByte .wrsr 1 = some (s.lastCmd.extractLsb' 24 8) ∧
    s.txByte .read 0 = some 0x03 ∧ s.txByte .write 0 = some 0x02 ∧
    s.txByte .read 1 = some (s.lastCmd.extractLsb' 16 8) ∧ s.txByte .write 1 = some (s.lastCmd.extractLsb' 16 8) ∧
    s.txByte .read 2 = some (s.lastCmd.extractLsb' 8 8) ∧ s.txByte .write 2 = some (s.lastCmd.extractLsb' 8 8) ∧
    (∀ k, 3 ≤ k → k < 3 + (s.lastCmd.extractLsb' 24 8).toNat →
      s.txByte .read k = some 0x00 ∧ s.txByte .write k = some (s.buf.read (k - 3))) ∧
    (∀ fk k, s.txByte fk k = none ↔ (match fk with
      | .wren | .wrdi => 1 ≤ k
      | .rdsr | .poll | .wrsr => 2 ≤ k
      | .read | .write => 3 + (s.lastCmd.extractLsb' 24 8).toNat ≤ k)) ∧
    (∀ (t : State) fk k, t.lastCmd = s.lastCmd → t.buf = s.buf → t.txByte fk k = s.txByte fk k) ∧
    (∀ x : CycleIn, s.st = .xfer → (s.outputs x).xferTx = s.txByte s.fk s.si.toNat)

/-- R98: the capture map. -/
def Obligations.CaptureMap : Prop :=
  ∀ (s : State) (fk : FrameKind) (k : Nat) (rx : Byte),
    let t := s.capture fk k rx
    (fk = .read → 3 ≤ k → k < 3 + s.curArg.toNat → s.stage.wf → s.curArg.toNat ≤ s.build.bufBytes →
      ∀ i, t.stage.read i = if i = k - 3 then rx else s.stage.read i) ∧
    (fk = .read → 3 ≤ k → k < 3 + s.curArg.toNat → { t with stage := s.stage } = s) ∧
    (fk = .rdsr ∨ fk = .poll → k = 1 → t = { s with sr := rx }) ∧
    (¬ (fk = .read ∧ 3 ≤ k ∧ k < 3 + s.curArg.toNat) → ¬ ((fk = .rdsr ∨ fk = .poll) ∧ k = 1) → t = s)

/-- R129, R130, R134: GAP counts down with chip-select high, and then takes the next step of the command: the abort path, a
WRITE's data frame, its wait, the poll decision, or FINISH. -/
def Obligations.LeavingGap : Prop :=
  ∀ (s : State) (x : CycleIn), s.st = .gap → x.calm → s.csN = true ∧
    s.edge x =
      if 1 < s.cnt.toNat then { s with cnt := s.cnt - 1 }
      else if s.abort = true then { s with st := .finish }
      else if s.fk = .wren ∧ s.lastCmd.extractLsb' 0 8 = 0x02 then { s with fk := .write, st := .assert }
      else if s.fk = .write then
        (if s.policy = .fixedDelay then
          (if s.wdelay = 0 then { s with st := .finish } else { s with cnt := s.wdelay, st := .delay })
        else { s with fk := .poll, st := .assert })
      else if s.fk = .poll then
        (if s.sr.getLsbD 0 = false then { s with st := .finish }
        else if s.limit.toNat ≤ s.polls.toNat then { s with res := .timeout, st := .finish }
        else if s.pollGap = 0 then { s with st := .assert }
        else { s with cnt := BitVec.ofNat 32 s.pollGap.toNat, st := .pgap })
      else { s with st := .finish }

/-- R129, R132, R133: GAP, DELAY and PGAP last as many cycles as `cnt` says on entry, with chip-select high in each and
nothing but `cnt` changing before the last; the last leaves DELAY for FINISH and PGAP for ASSERT with F_POLL still current. -/
def Obligations.CountersTimeTheWaits : Prop :=
  ∀ (s : State) (xs : List CycleIn) (x : CycleIn), s.st = .gap ∨ s.st = .delay ∨ s.st = .pgap → xs.length + 1 = s.cnt.toNat →
    (∀ y ∈ xs, y.calm) → x.calm →
    let t := (s.runBusy xs).1
    { t with cnt := s.cnt, log := s.log } = s ∧ t.cnt = 1 ∧
    (∀ r ∈ elapsed s t, r.outputs.csN = true) ∧ (elapsed s t).length = xs.length ∧
    (s.st = .gap → t.edge x = t.afterGap) ∧
    (s.st = .delay → t.edge x = { t with st := .finish }) ∧
    (s.st = .pgap → t.edge x = { t with st := .assert })

/-- R135: FINISH reports the result and the block is idle again. -/
def Obligations.FinishReportsTheResult : Prop :=
  ∀ (s : State) (x : CycleIn), s.st = .finish → x.calm →
    s.csN = true ∧ s.statWord.getLsbD 0 = true ∧ s.edge x = { s with done := true, result := s.res, st := .idle } ∧
    (s.edge x).statWord.getLsbD 0 = false ∧ (s.edge x).statWord.getLsbD 1 = true ∧
    (s.edge x).statWord.extractLsb' 2 2 = s.res.code

/-- R140: outside XFER the transport's inputs have no effect. -/
def Obligations.AnswersOutsideXferAreIgnored : Prop :=
  ∀ (s : State) (x : CycleIn) (d e : Bool) (b : Byte), s.st ≠ .xfer →
    s.edge { x with xferDone := d, xferRx := b, xferErr := e } = s.edge x

/-- R38 to R40: chip-select is low exactly in ASSERT and XFER, hold is always high, a byte is requested exactly in XFER. -/
def Obligations.OutputsAreFunctionsOfTheState : Prop :=
  ∀ (s : State) (x : CycleIn),
    ((s.outputs x).csN = false ↔ s.st = .assert ∨ s.st = .xfer) ∧ (s.outputs x).holdN = true ∧
    ((s.outputs x).xferReq = true ↔ s.st = .xfer)

/-- R183: bit 0 of a status byte is `writeInProgress`; no other bit matters, and STAT.WIP shows it. -/
def Obligations.StatusDecode : Prop :=
  (∀ b : Byte, writeInProgress b = decide (b.toNat % 2 = 1)) ∧ writeInProgress 0x01 = true ∧ writeInProgress 0x00 = false ∧
    writeInProgress 0xFE = false ∧ ∀ s : State, s.statWord.getLsbD 16 = writeInProgress s.sr

/-! ### Commands that complete -/

/-- R160, R139, R242: READ addr, len. From an idle block, over cycles without reset and host access in which the transport
answers the 3 + len exchanges: the data bytes, those received from slot 3 on, are in BUF, RESULT is Ok, the wire shows one
frame, and nothing else that the host sees has changed. -/
def Obligations.ReadCompletes : Prop :=
  ∀ (s : State) (addr : Addr) (len : Nat) (x c f : CycleIn) (fr rest : List CycleIn) (hdr data : List Byte),
    s.build.Legal → s.stage.wf → s.buf.wf → s.st = .idle → 1 ≤ len → len ≤ s.build.bufBytes →
    s.pending = x :: c :: (fr ++ f :: rest) → x.rst = false → c.calm → f.calm →
    hdr.length = 3 → data.length = len → frameCycles s.build.csGap.toNat (hdr ++ data) fr →
    ∃ t, exec (.read addr len) s = .next t ∧ t.st = .idle ∧ t.done = true ∧ t.result = .ok ∧ t.drop = false ∧
      t.lastCmd = BitVec.ofNat 32 (len * 2 ^ 24 + addr.toNat * 2 ^ 8 + 0x03) ∧ t.polls = 0 ∧ t.sr = s.sr ∧
      (∀ i : Nat, t.buf.read i = if h : i < data.length then data[i] else s.buf.read i) ∧
      t.policy = s.policy ∧ t.wdelay = s.wdelay ∧ t.limit = s.limit ∧ t.pollGap = s.pollGap ∧ t.build = s.build ∧
      t.pending = rest ∧ (elapsed s t).length = fr.length + 3 ∧
      (framesBetween s t).map Frame.sent =
        [0x03 :: addr.extractLsb' 8 8 :: addr.extractLsb' 0 8 :: List.replicate len 0x00]

/-- R162, R163, R139: WRITE addr, len under FIXED_DELAY: the write-enable frame, the data frame with BUF[0 .. len-1], WDELAY
cycles, and Ok; no status read. -/
def Obligations.WriteUnderFixedDelayCompletes : Prop :=
  ∀ (s : State) (addr : Addr) (len : Nat) (x c f : CycleIn) (en fr d rest : List CycleIn) (e : Byte) (rx : List Byte),
    s.build.Legal → s.st = .idle → 1 ≤ len → len ≤ s.build.bufBytes → s.policy = .fixedDelay →
    s.pending = x :: c :: (en ++ fr ++ d ++ f :: rest) → x.rst = false → c.calm → f.calm →
    frameCycles s.build.csGap.toNat [e] en → rx.length = 3 + len → frameCycles s.build.csGap.toNat rx fr →
    calmCycles s.wdelay.toNat d →
    ∃ t, exec (.write addr len) s = .next t ∧ t.st = .idle ∧ t.done = true ∧ t.result = .ok ∧ t.drop = false ∧
      t.lastCmd = BitVec.ofNat 32 (len * 2 ^ 24 + addr.toNat * 2 ^ 8 + 0x02) ∧ t.polls = 0 ∧ t.sr = s.sr ∧
      t.buf = s.buf ∧ t.stage = s.stage ∧
      t.policy = s.policy ∧ t.wdelay = s.wdelay ∧ t.limit = s.limit ∧ t.pollGap = s.pollGap ∧ t.build = s.build ∧
      t.pending = rest ∧
      (framesBetween s t).map Frame.sent =
        [[0x06], 0x02 :: addr.extractLsb' 8 8 :: addr.extractLsb' 0 8 :: (List.range len).map s.buf.read]

/-- R162, R164, R139: WRITE addr, len under POLL_STATUS whose last poll, the first with status bit 0 = 0, is among the first
POLLCFG.LIMIT: the write-enable frame, the data frame, the polls with POLLCFG.GAP cycles between, and Ok. -/
def Obligations.WriteUnderPollStatusCompletes : Prop :=
  ∀ (s : State) (addr : Addr) (len : Nat) (x c f : CycleIn) (en fr ps rest : List CycleIn) (e last : Byte)
    (rx waiting : List Byte),
    s.build.Legal → s.st = .idle → 1 ≤ len → len ≤ s.build.bufBytes → s.policy = .pollStatus →
    s.pending = x :: c :: (en ++ fr ++ ps ++ f :: rest) → x.rst = false → c.calm → f.calm →
    frameCycles s.build.csGap.toNat [e] en → rx.length = 3 + len → frameCycles s.build.csGap.toNat rx fr →
    pollCycles s.build.csGap.toNat s.pollGap.toNat (waiting ++ [last]) ps →
    (∀ b ∈ waiting, b.getLsbD 0 = true) → last.getLsbD 0 = false → waiting.length + 1 ≤ s.limit.toNat →
    ∃ t, exec (.write addr len) s = .next t ∧ t.st = .idle ∧ t.done = true ∧ t.result = .ok ∧ t.drop = false ∧
      t.lastCmd = BitVec.ofNat 32 (len * 2 ^ 24 + addr.toNat * 2 ^ 8 + 0x02) ∧
      t.polls.toNat = waiting.length + 1 ∧ t.sr = last ∧ t.buf = s.buf ∧ t.stage = s.stage ∧
      t.policy = s.policy ∧ t.wdelay = s.wdelay ∧ t.limit = s.limit ∧ t.pollGap = s.pollGap ∧ t.build = s.build ∧
      t.pending = rest ∧
      (framesBetween s t).map Frame.sent =
        [0x06] :: (0x02 :: addr.extractLsb' 8 8 :: addr.extractLsb' 0 8 :: (List.range len).map s.buf.read) ::
          List.replicate (waiting.length + 1) [0x05, 0x00]

/-- R164, R202, R200: a WRITE under POLL_STATUS whose first POLLCFG.LIMIT polls all read bit 0 = 1 fails with Timeout, after
exactly LIMIT polls, and the block is idle again. -/
def Obligations.WriteTimesOutAfterLimitPolls : Prop :=
  ∀ (s : State) (addr : Addr) (len : Nat) (x c f : CycleIn) (en fr ps rest : List CycleIn) (e last : Byte)
    (rx waiting : List Byte),
    s.build.Legal → s.st = .idle → 1 ≤ len → len ≤ s.build.bufBytes → s.policy = .pollStatus →
    s.pending = x :: c :: (en ++ fr ++ ps ++ f :: rest) → x.rst = false → c.calm → f.calm →
    frameCycles s.build.csGap.toNat [e] en → rx.length = 3 + len → frameCycles s.build.csGap.toNat rx fr →
    pollCycles s.build.csGap.toNat s.pollGap.toNat (waiting ++ [last]) ps →
    (∀ b ∈ waiting ++ [last], b.getLsbD 0 = true) → waiting.length + 1 = s.limit.toNat →
    ∃ t, exec (.write addr len) s = .next t ∧ t.st = .idle ∧ t.done = true ∧ t.result = .timeout ∧ t.result.code = 2 ∧
      t.polls = s.limit ∧ t.sr = last ∧ t.buf = s.buf ∧ t.csN = true ∧ t.pending = rest ∧
      (framesBetween s t).length = 2 + s.limit.toNat

/-- R180, R181, R139: WREN and WRDI send their opcode alone and finish with Ok; SR and BUF are unchanged. -/
def Obligations.WrenAndWrdiComplete : Prop :=
  ∀ (s : State) (ua : Addr) (ub : Byte) (i : Instr) (x c f : CycleIn) (fr rest : List CycleIn) (b : Byte),
    s.build.Legal → s.st = .idle → i = .wren ua ub ∨ i = .wrdi ua ub →
    s.pending = x :: c :: (fr ++ f :: rest) → x.rst = false → c.calm → f.calm → frameCycles s.build.csGap.toNat [b] fr →
    ∃ t, exec i s = .next t ∧ t.st = .idle ∧ t.done = true ∧ t.result = .ok ∧ t.drop = false ∧ t.lastCmd = encode i ∧
      t.polls = 0 ∧ t.sr = s.sr ∧ t.buf = s.buf ∧ t.stage = s.stage ∧ t.policy = s.policy ∧ t.wdelay = s.wdelay ∧
      t.limit = s.limit ∧ t.pollGap = s.pollGap ∧ t.build = s.build ∧ t.pending = rest ∧
      (framesBetween s t).map Frame.sent = [[if i = .wren ua ub then 0x06 else 0x04]]

/-- R182, R139: RDSR sends `05 00` and puts the byte received in the second slot into SR. -/
def Obligations.RdsrCompletes : Prop :=
  ∀ (s : State) (ua : Addr) (ub : Byte) (x c f : CycleIn) (fr rest : List CycleIn) (b status : Byte),
    s.build.Legal → s.st = .idle → s.pending = x :: c :: (fr ++ f :: rest) → x.rst = false → c.calm → f.calm →
    frameCycles s.build.csGap.toNat [b, status] fr →
    ∃ t, exec (.rdsr ua ub) s = .next t ∧ t.st = .idle ∧ t.done = true ∧ t.result = .ok ∧ t.drop = false ∧
      t.lastCmd = encode (.rdsr ua ub) ∧ t.polls = 0 ∧ t.sr = status ∧ t.statWord.extractLsb' 8 8 = status ∧
      t.statWord.getLsbD 16 = status.getLsbD 0 ∧ t.buf = s.buf ∧ t.stage = s.stage ∧ t.policy = s.policy ∧
      t.wdelay = s.wdelay ∧ t.limit = s.limit ∧ t.pollGap = s.pollGap ∧ t.build = s.build ∧ t.pending = rest ∧
      (framesBetween s t).map Frame.sent = [[0x05, 0x00]]

/-- R184, R139: WRSR sends `01 value`, whatever the value, and finishes with Ok; SR is not written. -/
def Obligations.WrsrCompletes : Prop :=
  ∀ (s : State) (value : Byte) (ua : Addr) (x c f : CycleIn) (fr rest : List CycleIn) (b b' : Byte),
    s.build.Legal → s.st = .idle → s.pending = x :: c :: (fr ++ f :: rest) → x.rst = false → c.calm → f.calm →
    frameCycles s.build.csGap.toNat [b, b'] fr →
    ∃ t, exec (.wrsr value ua) s = .next t ∧ t.st = .idle ∧ t.done = true ∧ t.result = .ok ∧ t.drop = false ∧
      t.lastCmd = encode (.wrsr value ua) ∧ t.polls = 0 ∧ t.sr = s.sr ∧ t.buf = s.buf ∧ t.stage = s.stage ∧
      t.policy = s.policy ∧ t.wdelay = s.wdelay ∧ t.limit = s.limit ∧ t.pollGap = s.pollGap ∧ t.build = s.build ∧
      t.pending = rest ∧ (framesBetween s t).map Frame.sent = [[0x01, value]]

/-! ### Commands that end with an error, or are turned away -/

/-- R122, R201: READ and WRITE with LEN = 0 or LEN above BUF_BYTES, and every word of a reserved OPC, are accepted, send no
frame and finish with InvalidArgument two cycles later. -/
def Obligations.InvalidCommandsAreRejected : Prop :=
  ∀ (s : State) (x c f : CycleIn) (rest : List CycleIn), s.st = .idle → s.pending = x :: c :: f :: rest → x.rst = false →
    c.calm → f.calm →
    (∀ (i : Instr) (addr : Addr) (len : Nat), i.WellFormed → i = .read addr len ∨ i = .write addr len →
      len = 0 ∨ s.build.bufBytes < len →
      ∃ t, exec i s = .next t ∧ t.st = .idle ∧ t.done = true ∧ t.result = .invalidArgument ∧ t.result.code = 1 ∧
        t.lastCmd = encode i ∧ t.buf = s.buf ∧ t.sr = s.sr ∧ t.polls = 0 ∧ t.pending = rest ∧ framesBetween s t = []) ∧
    (∀ w : Word, x.host = .write 0x000 4 w → (∃ e, decode w = .error e) →
      ∃ t, step s = .next t ∧ t.st = .idle ∧ t.done = true ∧ t.result = .invalidArgument ∧ t.lastCmd = w ∧
        t.buf = s.buf ∧ t.sr = s.sr ∧ t.polls = 0 ∧ t.pending = rest ∧ framesBetween s t = [])

/-- R128, R131, R203: when an exchange of a command's first frame fails, whatever its slot, the command ends with BusFault: no
later frame, no wait, BUF and SR as they were, chip-select high, the block idle. -/
def Obligations.FaultInTheFirstFrameEndsTheCommand : Prop :=
  ∀ (s : State) (i : Instr) (x c f : CycleIn) (fr rest : List CycleIn) (rx : List Byte),
    s.build.Legal → s.build.transportHasErr = true → i.WellFormed → s.st = .idle →
    s.pending = x :: c :: (fr ++ f :: rest) → x.rst = false → c.calm → f.calm →
    (∀ addr len, i = .read addr len ∨ i = .write addr len → 1 ≤ len ∧ len ≤ s.build.bufBytes) →
    rx.length < (match i with
      | .read _ len => 3 + len
      | .write _ _ | .wren _ _ | .wrdi _ _ => 1
      | .rdsr _ _ | .wrsr _ _ => 2) →
    brokenFrameCycles s.build.csGap.toNat rx fr →
    ∃ t, exec i s = .next t ∧ t.st = .idle ∧ t.done = true ∧ t.result = .busFault ∧ t.result.code = 3 ∧ t.buf = s.buf ∧
      t.sr = s.sr ∧ t.polls = 0 ∧ t.csN = true ∧ t.pending = rest ∧ (framesBetween s t).length = 1

/-- R128, R131: when an exchange of a WRITE's data frame fails, whatever its slot, the WRITE ends with BusFault under either policy:
no wait and no poll, BUF and SR as they were, chip-select high, the block idle. -/
def Obligations.FaultInTheDataFrameEndsTheWrite : Prop :=
  ∀ (s : State) (addr : Addr) (len : Nat) (x c f : CycleIn) (en fr rest : List CycleIn) (e : Byte) (rx : List Byte),
    s.build.Legal → s.build.transportHasErr = true → s.st = .idle → 1 ≤ len → len ≤ s.build.bufBytes →
    s.pending = x :: c :: (en ++ fr ++ f :: rest) → x.rst = false → c.calm → f.calm →
    frameCycles s.build.csGap.toNat [e] en → rx.length < 3 + len → brokenFrameCycles s.build.csGap.toNat rx fr →
    ∃ t, exec (.write addr len) s = .next t ∧ t.st = .idle ∧ t.done = true ∧ t.result = .busFault ∧ t.result.code = 3 ∧
      t.buf = s.buf ∧ t.stage = s.stage ∧ t.sr = s.sr ∧ t.polls = 0 ∧ t.csN = true ∧ t.pending = rest ∧
      (framesBetween s t).map Frame.sent =
        [[0x06], (0x02 :: addr.extractLsb' 8 8 :: addr.extractLsb' 0 8 :: (List.range len).map s.buf.read).take (rx.length + 1)]

/-- R128, R131, R164: when an exchange of a poll fails after some polls, fewer than POLLCFG.LIMIT, that all read bit 0 = 1, the WRITE
ends with BusFault and not with Timeout: the failed poll is not counted and its byte not captured, chip-select is high, the block
idle. -/
def Obligations.FaultInAPollEndsTheWrite : Prop :=
  ∀ (s : State) (addr : Addr) (len : Nat) (x c f : CycleIn) (en fr ps d bad rest : List CycleIn) (e : Byte)
    (rx waiting bx : List Byte),
    s.build.Legal → s.build.transportHasErr = true → s.st = .idle → 1 ≤ len → len ≤ s.build.bufBytes →
    s.policy = .pollStatus → s.pending = x :: c :: (en ++ fr ++ ps ++ d ++ bad ++ f :: rest) → x.rst = false → c.calm → f.calm →
    frameCycles s.build.csGap.toNat [e] en → rx.length = 3 + len → frameCycles s.build.csGap.toNat rx fr →
    pollCycles s.build.csGap.toNat s.pollGap.toNat waiting ps → (∀ b ∈ waiting, b.getLsbD 0 = true) →
    waiting.length < s.limit.toNat → calmCycles (if waiting = [] then 0 else s.pollGap.toNat) d →
    bx.length < 2 → brokenFrameCycles s.build.csGap.toNat bx bad →
    ∃ t, exec (.write addr len) s = .next t ∧ t.st = .idle ∧ t.done = true ∧ t.result = .busFault ∧ t.result.code = 3 ∧
      t.buf = s.buf ∧ t.stage = s.stage ∧ t.sr = waiting.getLastD s.sr ∧ t.polls.toNat = waiting.length ∧ t.csN = true ∧
      t.pending = rest ∧ (framesBetween s t).length = 2 + waiting.length + 1

/-- R33, R209: a command issued while the block is busy is lost: it sets DROP and does nothing else; the command in progress
goes on. -/
def Obligations.CommandWhileBusyIsDropped : Prop :=
  ∀ (s : State) (i : Instr) (x : CycleIn) (rest : List CycleIn), s.st ≠ .idle → s.pending = x :: rest → x.rst = false →
    ∃ t, exec i s = .next t ∧ t.drop = true ∧ t.lastCmd = s.lastCmd ∧
      { t with drop := s.drop, log := s.log } = { s.edge { x with host := .nothing } with pending := rest, drop := s.drop }

/-! ### Frames: what a command leaves unchanged -/

/-- R69, R160: READ, however far it gets over cycles without reset. The configuration, SR, the build and every byte of BUF and
of STAGE at or above LEN are unchanged. -/
def Obligations.ReadChangesOnlyItsBytes : Prop :=
  ∀ (s t : State) (addr : Addr) (len : Nat), s.st = .idle → s.buf.wf → s.stage.wf → len ≤ 0xFF → noReset s.pending →
    exec (.read addr len) s = .next t →
    t.policy = s.policy ∧ t.wdelay = s.wdelay ∧ t.limit = s.limit ∧ t.pollGap = s.pollGap ∧ t.build = s.build ∧
      t.sr = s.sr ∧ t.polls = 0 ∧ t.lastCmd = encode (.read addr len) ∧
      (∀ i : Nat, len ≤ i → t.buf.read i = s.buf.read i ∧ t.stage.read i = s.stage.read i) ∧
      (t.st ≠ .idle → t.st ≠ .gap → t.st ≠ .finish → t.buf = s.buf)

/-- R69, R162: WRITE, however far it gets over cycles without reset. The configuration, the build and every byte of BUF and of
STAGE are unchanged; SR and POLLCNT change under POLL_STATUS only. -/
def Obligations.WriteLeavesTheBuffers : Prop :=
  ∀ (s t : State) (addr : Addr) (len : Nat), s.st = .idle → len ≤ 0xFF → noReset s.pending →
    exec (.write addr len) s = .next t →
    t.policy = s.policy ∧ t.wdelay = s.wdelay ∧ t.limit = s.limit ∧ t.pollGap = s.pollGap ∧ t.build = s.build ∧
      t.buf = s.buf ∧ t.stage = s.stage ∧ t.lastCmd = encode (.write addr len) ∧
      (s.policy = .fixedDelay → t.sr = s.sr ∧ t.polls = 0)

/-- R180 to R184: WREN, WRDI, RDSR and WRSR, however far they get over cycles without reset. The configuration, the build and
every byte of BUF and of STAGE are unchanged, POLLCNT is 0, and SR is unchanged but for RDSR. -/
def Obligations.LatchAndStatusCommandsLeaveTheRest : Prop :=
  ∀ (s t : State) (i : Instr) (a : Addr) (b : Byte), s.st = .idle →
    i = .wren a b ∨ i = .wrdi a b ∨ i = .rdsr a b ∨ i = .wrsr b a → noReset s.pending → exec i s = .next t →
    t.policy = s.policy ∧ t.wdelay = s.wdelay ∧ t.limit = s.limit ∧ t.pollGap = s.pollGap ∧ t.build = s.build ∧
      t.buf = s.buf ∧ t.stage = s.stage ∧ t.polls = 0 ∧ t.lastCmd = encode i ∧ (i ≠ .rdsr a b → t.sr = s.sr)

/-! ### Commands over any cycles -/

/-- R160, R161: a READ that finishes, over any cycles without reset, whatever the host and the transport do in them, leaves
what its pseudocode says of the transport's answers. -/
def Obligations.ReadFollowsItsPseudocode : Prop :=
  ∀ (s t : State) (addr : Addr) (len : Nat), s.st = .idle → s.stage.wf → len ≤ 0xFF → noReset s.pending →
    exec (.read addr len) s = .next t → t.st = .idle →
    commandResult s (repliesBetween s t) (.read addr len) = some t.visible ∧ t.done = true

/-- R162 to R164: a WRITE that finishes, over any cycles without reset, leaves what its pseudocode says of the transport's
answers. -/
def Obligations.WriteFollowsItsPseudocode : Prop :=
  ∀ (s t : State) (addr : Addr) (len : Nat), s.st = .idle → s.limit ≠ 0 → len ≤ 0xFF → noReset s.pending →
    exec (.write addr len) s = .next t → t.st = .idle →
    commandResult s (repliesBetween s t) (.write addr len) = some t.visible ∧ t.done = true

/-- R180 to R184: WREN, WRDI, RDSR and WRSR likewise. -/
def Obligations.LatchAndStatusCommandsFollowTheirPseudocode : Prop :=
  ∀ (s t : State) (i : Instr) (a : Addr) (b : Byte), s.st = .idle →
    i = .wren a b ∨ i = .wrdi a b ∨ i = .rdsr a b ∨ i = .wrsr b a → noReset s.pending → exec i s = .next t → t.st = .idle →
    commandResult s (repliesBetween s t) i = some t.visible ∧ t.done = true

/-- R161: a READ is all or none on BUF. After BusFault, BUF is what it was; after Ok, `BUF[i]` is the byte received in slot
`3 + i` for every `i < LEN`. -/
def Obligations.ReadIsAllOrNone : Prop :=
  ∀ (s t : State) (addr : Addr) (len : Nat), s.st = .idle → s.stage.wf → s.buf.wf → len ≤ 0xFF → noReset s.pending →
    exec (.read addr len) s = .next t → t.done = true →
    (t.result = .busFault → t.buf = s.buf) ∧
    (t.result = .ok → ∀ i : Nat, i < len → ((exchangesBetween s t)[3 + i]?).map Exchange.rx = some (t.buf.read i))

/-- R138: in every command, over any cycles, a frame that sends the WRITE opcode is immediately preceded by a frame that sends
WREN alone. -/
def Obligations.WriteFrameFollowsWrenFrame : Prop :=
  ∀ (s t : State) (i : Instr) (n : Nat) (fr : Frame), s.st = .idle → i.WellFormed → exec i s = .next t →
    (framesBetween s t)[n]? = some fr → fr.sent.head? = some 0x02 →
    ∃ m, n = m + 1 ∧ ((framesBetween s t)[m]?).map Frame.sent = some [0x06]

/-- R136, R240: from an idle block on, over any steps and any number of commands, chip-select is high for at least CS_GAP cycles
between two frames, and for at least CS_GAP + 3 where the block was idle in between, as long as no reset falls between the two
(a reset ends a frame or its GAP at once, R230). In an idle state chip-select is high. -/
def Obligations.ChipSelectStaysHighBetweenFrames : Prop :=
  (∀ (s t : State) (m n : Nat) (a b : CycleRecord), s.build.Legal → s.st = .idle → Reaches s t →
    (elapsed s t)[m]? = some a → (elapsed s t)[n]? = some b → m + 1 < n → a.outputs.csN = false → b.outputs.csN = false →
    (∀ k c, m < k → k < n → (elapsed s t)[k]? = some c → c.outputs.csN = true) →
    (∀ k c, m ≤ k → k < n → (elapsed s t)[k]? = some c → c.inputs.rst = false) →
    s.build.csGap.toNat ≤ n - m - 1) ∧
  (∀ (s u t : State) (m n : Nat) (a b : CycleRecord), s.build.Legal → s.st = .idle → Reaches s u → u.st = .idle → Reaches u t →
    (elapsed s t)[m]? = some a → (elapsed s t)[n]? = some b → m < (elapsed s u).length → (elapsed s u).length ≤ n →
    a.outputs.csN = false → b.outputs.csN = false →
    (∀ k c, m < k → k < n → (elapsed s t)[k]? = some c → c.outputs.csN = true) →
    (∀ k c, m ≤ k → k < n → (elapsed s t)[k]? = some c → c.inputs.rst = false) →
    s.build.csGap.toNat + 3 ≤ n - m - 1) ∧
  ∀ s : State, s.st = .idle → s.csN = true

/-- R137: the number of frames of a finished command, by its result. -/
def Obligations.FrameCount : Prop :=
  ∀ (s t : State) (i : Instr), s.st = .idle → s.limit ≠ 0 → i.WellFormed → noReset s.pending → exec i s = .next t →
    t.done = true →
    let n := (framesBetween s t).length
    (t.result = .ok → match i with
      | .read _ _ | .wren _ _ | .wrdi _ _ | .rdsr _ _ | .wrsr _ _ => n = 1
      | .write _ _ =>
        if s.policy = .fixedDelay then n = 2
        else n = 2 + t.polls.toNat ∧ 1 ≤ t.polls.toNat ∧ t.polls.toNat ≤ s.limit.toNat) ∧
    (t.result = .timeout → n = 2 + s.limit.toNat) ∧
    (t.result = .invalidArgument → n = 0) ∧
    (t.result = .busFault → ∃ fs fr e, framesBetween s t = fs ++ [fr] ∧ fr.getLast? = some e ∧ e.err = true)

/-- R165: the round trip, with a device that obeys R71 to R76 as the premise, seen cycle by cycle from the cycle after the
acceptance of the WRITE on. A WRITE of BUF[0 .. n-1] that finishes with Ok, under POLL_STATUS or with WDELAY + CS_GAP cycles at
least the device's write time, and any later READ of the same addresses that finishes with Ok: BUF[0 .. n-1] then holds the bytes
written, whatever it held before the READ. In between the block may run any steps whose frames hold no WRITE and no WRSR, are
whole, and, for a READ, stay below the top address (what others do to the device is open: R79, R237). The device is the premise
of assumption logs 13, 20 (its power-up is over) and 23 to 25. -/
def Obligations.RoundTripThroughTheDevice : Prop :=
  ∀ (p : DeviceParams) (d0 d1 : Device) (s t u v : State) (addr : Addr) (n : Nat),
    s.build.Legal → s.st = .idle → s.buf.wf → s.stage.wf → 1 ≤ n → n ≤ s.build.bufBytes →
    d0.window = none → d0.busy = false → d0.array.wf → p.inRange addr.toNat n →
    exec (.write addr n) s = .next t → t.done = true → t.result = .ok →
    (s.policy = .pollStatus ∨ ∃ k, p.writeTime = some k ∧ k ≤ s.wdelay.toNat + s.build.csGap.toNat) →
    Reaches t u → u.st = .idle → (∀ r ∈ elapsed t u, r.outputs.csN = false → r.inputs.rst = false) →
    (∀ f ∈ framesBetween t u, f.harmless p) →
    exec (.read addr n) u = .next v → v.done = true → v.result = .ok →
    Device.Run p d0 (wireBetween s v).tail d1 →
    ∀ i : Nat, i < n → v.buf.read i = s.buf.read i

/-! ### The host's sequences -/

/-- R100: `readEeprom(addr, len)` gives the data bytes that the transport brings, or InvalidArgument for a length that CHECK
rejects. The host's pace, one operation in every cycle, is the model's choice (assumption log 21). -/
def Obligations.ReadEepromGivesTheBytes : Prop :=
  (∀ (s : State) (addr : Addr) (x c f y : CycleIn) (fr hs rest : List CycleIn) (hdr data : List Byte),
    s.build.Legal → s.stage.wf → s.buf.wf → s.st = .idle → 1 ≤ data.length → data.length ≤ s.build.bufBytes →
    s.pending = x :: c :: (fr ++ f :: y :: (hs ++ rest)) → x.rst = false → c.calm → f.calm → y.rst = false →
    hdr.length = 3 → frameCycles s.build.csGap.toNat (hdr ++ data) fr →
    hs.length = (data.length + 3) / 4 → noReset hs →
    (s.readEeprom addr data.length).2 = some (.ok data) ∧ (s.readEeprom addr data.length).1.pending = rest) ∧
  (∀ (s : State) (addr : Addr) (len : Nat) (x c f y : CycleIn) (rest : List CycleIn),
    s.st = .idle → len = 0 ∨ (s.build.bufBytes < len ∧ len ≤ 0xFF) → s.pending = x :: c :: f :: y :: rest →
    x.rst = false → c.calm → f.calm → y.rst = false →
    (s.readEeprom addr len).2 = some (.error (.result 1)) ∧ (s.readEeprom addr len).1.pending = rest)

/-- R100: `writeEeprom(addr, data)` sends the data in a WRITE frame after the write-enable frame and answers Ok, under either
policy; or InvalidArgument for no data, or more than BUF holds; whatever the host puts above the data in the last word
(assumption log 22). The host's pace, one operation in every cycle, is the model's choice (assumption log 21). -/
def Obligations.WriteEepromSendsTheBytes : Prop :=
  (∀ (s : State) (addr : Addr) (data : List Byte) (above : Nat → Byte) (x c f y : CycleIn) (hs en fr d rest : List CycleIn) (e : Byte)
      (rx : List Byte),
    s.build.Legal → s.buf.wf → s.st = .idle → 1 ≤ data.length → data.length ≤ s.build.bufBytes →
    s.pending = hs ++ x :: c :: (en ++ fr ++ d ++ f :: y :: rest) → hs.length = (data.length + 3) / 4 → noReset hs →
    x.rst = false → c.calm → f.calm → y.rst = false →
    frameCycles s.build.csGap.toNat [e] en → rx.length = 3 + data.length → frameCycles s.build.csGap.toNat rx fr →
    waitCycles s d →
    (s.writeEeprom addr data above).2 = some (.ok ()) ∧ (s.writeEeprom addr data above).1.pending = rest ∧
      ((framesBetween s (s.writeEeprom addr data above).1).map Frame.sent).take 2 =
        [[0x06], 0x02 :: addr.extractLsb' 8 8 :: addr.extractLsb' 0 8 :: data]) ∧
  (∀ (s : State) (addr : Addr) (data : List Byte) (above : Nat → Byte) (x c f y : CycleIn) (hs rest : List CycleIn),
    s.st = .idle → data = [] ∨ (s.build.bufBytes < data.length ∧ data.length ≤ 0xFF) →
    s.pending = hs ++ x :: c :: f :: y :: rest → hs.length = (data.length + 3) / 4 → noReset hs →
    x.rst = false → c.calm → f.calm → y.rst = false →
    (s.writeEeprom addr data above).2 = some (.error (.result 1)) ∧ (s.writeEeprom addr data above).1.pending = rest ∧
      framesBetween s (s.writeEeprom addr data above).1 = [])

/-- R100: `readStatus()` gives the status byte that the transport brings. The host's pace, a read of STAT in every cycle, is the
model's choice (assumption log 21). -/
def Obligations.ReadStatusGivesTheStatusByte : Prop :=
  ∀ (s : State) (x c f y : CycleIn) (fr rest : List CycleIn) (b status : Byte),
    s.build.Legal → s.st = .idle → s.pending = x :: c :: (fr ++ f :: y :: rest) → x.rst = false → c.calm → f.calm →
    y.rst = false → frameCycles s.build.csGap.toNat [b, status] fr →
    s.readStatus.2 = some (.ok status) ∧ s.readStatus.1.pending = rest ∧ s.readStatus.1.sr = status
end

