-- ==== Sys2Proof/Laws/Memory.lean ====
section
/-! SUPPORT. The laws of the byte buffers: a read after a write, and the canonical form that every operation keeps. -/

namespace Sys2Proof.Machine

@[simp] theorem Memory.read_nil (i : Nat) : Memory.read [] i = Memory.fill := rfl

theorem Memory.read_cons (k : Nat) (b : Byte) (m : Memory) (i : Nat) :
    Memory.read ((k, b) :: m) i = if k = i then b else Memory.read m i := rfl

@[simp] theorem Memory.wf_nil : Memory.wf [] := ⟨List.Pairwise.nil, by simp⟩

theorem Memory.wf_cons {k : Nat} {b : Byte} {m : Memory} :
    Memory.wf ((k, b) :: m) ↔ (∀ c ∈ m, k < c.1) ∧ b ≠ Memory.fill ∧ Memory.wf m := by
  simp only [Memory.wf, List.pairwise_cons, List.mem_cons, forall_eq_or_imp]
  tauto

/-- An index below every listed one reads as an unlisted one. -/
theorem Memory.read_of_lt {m : Memory} {i : Nat} (h : ∀ c ∈ m, i < c.1) : m.read i = Memory.fill := by
  induction m with
  | nil => rfl
  | cons c m ih =>
    obtain ⟨k, b⟩ := c
    have hk : i < k := h (k, b) (by simp)
    rw [Memory.read_cons, if_neg (by omega)]
    exact ih fun c hc => h c (by simp [hc])

/-- The indices after a write: the old ones, and the written one. -/
theorem Memory.mem_write {m : Memory} {i : Nat} {b : Byte} {c : Host.Cell} (h : c ∈ m.write i b) :
    c ∈ m ∨ (c = (i, b) ∧ b ≠ Memory.fill) := by
  induction m with
  | nil =>
    by_cases hb : b = Memory.fill <;> simp_all [Memory.write]
  | cons d m ih =>
    obtain ⟨k, e⟩ := d
    by_cases hb : b = Memory.fill <;> simp only [Memory.write] at h <;> split at h <;>
      (try split at h) <;> simp_all <;> tauto

/-- A write keeps the canonical form. -/
theorem Memory.wf_write {m : Memory} (h : m.wf) (i : Nat) (b : Byte) : (m.write i b).wf := by
  induction m with
  | nil =>
    simp only [Memory.write]
    split <;> simp_all [Memory.wf]
  | cons d m ih =>
    obtain ⟨k, e⟩ := d
    obtain ⟨h1, h2, h3⟩ := Memory.wf_cons.mp h
    by_cases hik : i < k
    · by_cases hb : b = Memory.fill
      · simpa [Memory.write, hik, hb] using h
      · simp only [Memory.write, hik, if_true, hb, if_false]
        refine Memory.wf_cons.mpr ⟨?_, hb, h⟩
        intro c hc
        rcases List.mem_cons.mp hc with rfl | hc
        · exact hik
        · exact lt_trans hik (h1 c hc)
    · by_cases he : i = k
      · subst he
        by_cases hb : b = Memory.fill
        · simpa [Memory.write, hb] using h3
        · simp only [Memory.write, lt_irrefl, if_false, if_true, hb]
          exact Memory.wf_cons.mpr ⟨h1, hb, h3⟩
      · simp only [Memory.write, hik, he, if_false]
        refine Memory.wf_cons.mpr ⟨?_, h2, ih h3⟩
        intro c hc
        rcases Memory.mem_write hc with hc | ⟨rfl, _⟩
        · exact h1 c hc
        · show k < i
          omega

/-- The first law of memory: what was written is read, and no other byte changes. -/
theorem Memory.read_write {m : Memory} (h : m.wf) (i : Nat) (b : Byte) (j : Nat) :
    (m.write i b).read j = if j = i then b else m.read j := by
  induction m with
  | nil =>
    by_cases hb : b = Memory.fill
    · simp [Memory.write, hb]
    · simp only [Memory.write, hb, if_false, Memory.read_cons, Memory.read_nil]
      split <;> split <;> simp_all
  | cons d m ih =>
    obtain ⟨k, e⟩ := d
    obtain ⟨h1, h2, h3⟩ := Memory.wf_cons.mp h
    have hlow : ∀ x, x ≤ k → Memory.read m x = Memory.fill := fun x hx =>
      Memory.read_of_lt fun c hc => lt_of_le_of_lt hx (h1 c hc)
    by_cases hik : i < k
    · have hi : Memory.read ((k, e) :: m) i = Memory.fill := by
        rw [Memory.read_cons, if_neg (by omega)]; exact hlow i (by omega)
      by_cases hb : b = Memory.fill
      · simp only [Memory.write, hik, hb, if_true]
        split
        · subst_vars; exact hi
        · rfl
      · simp only [Memory.write, hik, hb, if_true, if_false]
        rw [Memory.read_cons i b]
        by_cases hj : j = i
        · simp [hj]
        · simp [hj, Ne.symm hj]
    · by_cases he : i = k
      · subst he
        by_cases hb : b = Memory.fill
        · simp only [Memory.write, lt_irrefl, if_false, if_true, hb, Memory.read_cons]
          by_cases hj : j = i
          · subst hj; simp [hlow j le_rfl]
          · simp [hj, Ne.symm hj]
        · simp only [Memory.write, lt_irrefl, if_false, if_true, hb, Memory.read_cons]
          by_cases hj : j = i
          · simp [hj]
          · simp [hj, Ne.symm hj]
      · simp only [Memory.write, hik, he, if_false, Memory.read_cons, ih h3]
        by_cases hj : j = i
        · subst hj; simp [Ne.symm he]
        · simp [hj]

theorem Memory.wf_writeBelow {m : Memory} (h : m.wf) (n i : Nat) (b : Byte) : (m.writeBelow n i b).wf := by
  unfold Memory.writeBelow; split
  · exact Memory.wf_write h i b
  · exact h

/-- What was written to an existing index is read, and no other byte changes. -/
theorem Memory.read_writeBelow {m : Memory} (h : m.wf) (n i : Nat) (b : Byte) (j : Nat) :
    (m.writeBelow n i b).read j = if j = i ∧ i < n then b else m.read j := by
  unfold Memory.writeBelow; split
  · rw [Memory.read_write h]; simp_all
  · simp_all

/-- A write below a bound keeps every index below it. -/
theorem Memory.below_write {m : Memory} {n i : Nat} (h : m.Below n) (hi : i < n) (b : Byte) : (m.write i b).Below n := by
  intro c hc
  rcases Memory.mem_write hc with hc | ⟨rfl, _⟩
  · exact h c hc
  · exact hi

theorem Memory.below_writeBelow {m : Memory} {n : Nat} (h : m.Below n) (i : Nat) (b : Byte) :
    (m.writeBelow n i b).Below n := by
  unfold Memory.writeBelow; split
  · exact Memory.below_write h (by assumption) b
  · exact h

/-- Equal memories are equal data. -/
theorem Memory.ext_of_wf {m m' : Memory} (h : m.wf) (h' : m'.wf) (he : ∀ i, m.read i = m'.read i) : m = m' := by
  induction m generalizing m' with
  | nil =>
    cases m' with
    | nil => rfl
    | cons d m' =>
      obtain ⟨k, b⟩ := d
      have := he k
      simp [Memory.read_cons] at this
      exact absurd this.symm (Memory.wf_cons.mp h').2.1
  | cons d m ih =>
    obtain ⟨k, b⟩ := d
    obtain ⟨h1, h2, h3⟩ := Memory.wf_cons.mp h
    cases m' with
    | nil =>
      have := he k
      simp [Memory.read_cons] at this
      exact absurd this h2
    | cons d' m' =>
      obtain ⟨k', b'⟩ := d'
      obtain ⟨h1', h2', h3'⟩ := Memory.wf_cons.mp h'
      have hk : k = k' := by
        rcases Nat.lt_trichotomy k k' with hlt | heq | hgt
        · have := he k
          rw [Memory.read_cons, if_pos rfl, Memory.read_cons, if_neg (by omega),
            Memory.read_of_lt fun c hc => lt_trans hlt (h1' c hc)] at this
          exact absurd this h2
        · exact heq
        · have := he k'
          rw [Memory.read_cons, if_neg (by omega), Memory.read_of_lt fun c hc => lt_trans hgt (h1 c hc),
            Memory.read_cons, if_pos rfl] at this
          exact absurd this.symm h2'
      subst hk
      have hb : b = b' := by simpa [Memory.read_cons] using he k
      subst hb
      congr 1
      refine ih h3 h3' fun i => ?_
      by_cases hi : k = i
      · subst hi
        rw [Memory.read_of_lt fun c hc => h1 c hc, Memory.read_of_lt fun c hc => h1' c hc]
      · simpa [Memory.read_cons, hi] using he i

theorem Memory.wf_copyFrom {src dst : Memory} (h : dst.wf) (n : Nat) : (src.copyFrom n dst).wf := by
  induction n with
  | zero => exact h
  | succ n ih => exact Memory.wf_write ih _ _

theorem Memory.below_copyFrom {src dst : Memory} {bound : Nat} (h : dst.Below bound) (n : Nat) (hn : n ≤ bound) :
    (src.copyFrom n dst).Below bound := by
  induction n with
  | zero => exact h
  | succ n ih => exact Memory.below_write (ih (by omega)) (by omega) _

/-- R127: the copy of the first `n` bytes. -/
theorem Memory.read_copyFrom {src dst : Memory} (h : dst.wf) (n i : Nat) :
    (src.copyFrom n dst).read i = if i < n then src.read i else dst.read i := by
  induction n with
  | zero => simp [Memory.copyFrom]
  | succ n ih =>
    rw [Memory.copyFrom, Memory.read_write (Memory.wf_copyFrom h n), ih]
    by_cases hi : i = n
    · subst hi; simp
    · simp only [hi, if_false]
      by_cases h' : i < n
      · simp [h', Nat.lt_succ_of_lt h']
      · rw [if_neg h', if_neg (by omega)]

theorem Memory.wf_store {m : Memory} (h : m.wf) (base : Nat) (bs : List Byte) : (m.store base bs).wf := by
  induction bs generalizing m base with
  | nil => exact h
  | cons b bs ih => exact ih (Memory.wf_write h _ _) _

/-- The bytes stored from `base` on are read back there, and no other byte changes. -/
theorem Memory.read_store {m : Memory} (h : m.wf) (base : Nat) (bs : List Byte) (i : Nat) :
    (m.store base bs).read i = if base ≤ i then (bs[i - base]?).getD (m.read i) else m.read i := by
  induction bs generalizing m base with
  | nil => simp [Memory.store]
  | cons b bs ih =>
    rw [Memory.store, ih (Memory.wf_write h _ _), Memory.read_write h]
    by_cases h1 : base + 1 ≤ i
    · have e : i - base = (i - (base + 1)) + 1 := by omega
      rw [if_pos h1, if_neg (by omega : ¬ i = base), if_pos (by omega : base ≤ i), e, List.getElem?_cons_succ]
    · by_cases h2 : i = base
      · subst h2; simp
      · rw [if_neg h1, if_neg h2, if_neg (by omega : ¬ base ≤ i)]

/-- The buffers after a reset are in canonical form. -/
theorem Memory.wf_initial (b : Build) : (State.initial b).buf.wf ∧ (State.initial b).stage.wf :=
  ⟨Memory.wf_nil, Memory.wf_nil⟩

end Sys2Proof.Machine
end

