-- ==== Sys2Proof/Laws/State.lean ====
section
/-! SUPPORT. One lemma per field per update of State: what each named update leaves in each field. -/

namespace Sys2Proof.Machine

variable (s : State)

/-! ### State.setStage -/

@[simp] theorem State.setStage_st (i : Nat) (b : Byte) : (s.setStage i b).st = s.st := rfl
@[simp] theorem State.setStage_lastCmd (i : Nat) (b : Byte) : (s.setStage i b).lastCmd = s.lastCmd := rfl
@[simp] theorem State.setStage_fk (i : Nat) (b : Byte) : (s.setStage i b).fk = s.fk := rfl
@[simp] theorem State.setStage_si (i : Nat) (b : Byte) : (s.setStage i b).si = s.si := rfl
@[simp] theorem State.setStage_cnt (i : Nat) (b : Byte) : (s.setStage i b).cnt = s.cnt := rfl
@[simp] theorem State.setStage_abort (i : Nat) (b : Byte) : (s.setStage i b).abort = s.abort := rfl
@[simp] theorem State.setStage_res (i : Nat) (b : Byte) : (s.setStage i b).res = s.res := rfl
@[simp] theorem State.setStage_polls (i : Nat) (b : Byte) : (s.setStage i b).polls = s.polls := rfl
@[simp] theorem State.setStage_done (i : Nat) (b : Byte) : (s.setStage i b).done = s.done := rfl
@[simp] theorem State.setStage_result (i : Nat) (b : Byte) : (s.setStage i b).result = s.result := rfl
@[simp] theorem State.setStage_drop (i : Nat) (b : Byte) : (s.setStage i b).drop = s.drop := rfl
@[simp] theorem State.setStage_sr (i : Nat) (b : Byte) : (s.setStage i b).sr = s.sr := rfl
@[simp] theorem State.setStage_policy (i : Nat) (b : Byte) : (s.setStage i b).policy = s.policy := rfl
@[simp] theorem State.setStage_wdelay (i : Nat) (b : Byte) : (s.setStage i b).wdelay = s.wdelay := rfl
@[simp] theorem State.setStage_limit (i : Nat) (b : Byte) : (s.setStage i b).limit = s.limit := rfl
@[simp] theorem State.setStage_pollGap (i : Nat) (b : Byte) : (s.setStage i b).pollGap = s.pollGap := rfl
@[simp] theorem State.setStage_buf (i : Nat) (b : Byte) : (s.setStage i b).buf = s.buf := rfl
@[simp] theorem State.setStage_stage (i : Nat) (b : Byte) : (s.setStage i b).stage = s.stage.writeBelow s.build.bufBytes i b := rfl
@[simp] theorem State.setStage_build (i : Nat) (b : Byte) : (s.setStage i b).build = s.build := rfl
@[simp] theorem State.setStage_pending (i : Nat) (b : Byte) : (s.setStage i b).pending = s.pending := rfl
@[simp] theorem State.setStage_log (i : Nat) (b : Byte) : (s.setStage i b).log = s.log := rfl

/-! ### State.commitStage -/

@[simp] theorem State.commitStage_st (n : Nat) : (s.commitStage n).st = s.st := rfl
@[simp] theorem State.commitStage_lastCmd (n : Nat) : (s.commitStage n).lastCmd = s.lastCmd := rfl
@[simp] theorem State.commitStage_fk (n : Nat) : (s.commitStage n).fk = s.fk := rfl
@[simp] theorem State.commitStage_si (n : Nat) : (s.commitStage n).si = s.si := rfl
@[simp] theorem State.commitStage_cnt (n : Nat) : (s.commitStage n).cnt = s.cnt := rfl
@[simp] theorem State.commitStage_abort (n : Nat) : (s.commitStage n).abort = s.abort := rfl
@[simp] theorem State.commitStage_res (n : Nat) : (s.commitStage n).res = s.res := rfl
@[simp] theorem State.commitStage_polls (n : Nat) : (s.commitStage n).polls = s.polls := rfl
@[simp] theorem State.commitStage_done (n : Nat) : (s.commitStage n).done = s.done := rfl
@[simp] theorem State.commitStage_result (n : Nat) : (s.commitStage n).result = s.result := rfl
@[simp] theorem State.commitStage_drop (n : Nat) : (s.commitStage n).drop = s.drop := rfl
@[simp] theorem State.commitStage_sr (n : Nat) : (s.commitStage n).sr = s.sr := rfl
@[simp] theorem State.commitStage_policy (n : Nat) : (s.commitStage n).policy = s.policy := rfl
@[simp] theorem State.commitStage_wdelay (n : Nat) : (s.commitStage n).wdelay = s.wdelay := rfl
@[simp] theorem State.commitStage_limit (n : Nat) : (s.commitStage n).limit = s.limit := rfl
@[simp] theorem State.commitStage_pollGap (n : Nat) : (s.commitStage n).pollGap = s.pollGap := rfl
@[simp] theorem State.commitStage_buf (n : Nat) : (s.commitStage n).buf = s.stage.copyFrom (min n s.build.bufBytes) s.buf := rfl
@[simp] theorem State.commitStage_stage (n : Nat) : (s.commitStage n).stage = s.stage := rfl
@[simp] theorem State.commitStage_build (n : Nat) : (s.commitStage n).build = s.build := rfl
@[simp] theorem State.commitStage_pending (n : Nat) : (s.commitStage n).pending = s.pending := rfl
@[simp] theorem State.commitStage_log (n : Nat) : (s.commitStage n).log = s.log := rfl

/-! ### State.accept -/

@[simp] theorem State.accept_st (w : Word) : (s.accept w).st = .check := rfl
@[simp] theorem State.accept_lastCmd (w : Word) : (s.accept w).lastCmd = w := rfl
@[simp] theorem State.accept_fk (w : Word) : (s.accept w).fk = s.fk := rfl
@[simp] theorem State.accept_si (w : Word) : (s.accept w).si = s.si := rfl
@[simp] theorem State.accept_cnt (w : Word) : (s.accept w).cnt = s.cnt := rfl
@[simp] theorem State.accept_abort (w : Word) : (s.accept w).abort = false := rfl
@[simp] theorem State.accept_res (w : Word) : (s.accept w).res = .ok := rfl
@[simp] theorem State.accept_polls (w : Word) : (s.accept w).polls = 0 := rfl
@[simp] theorem State.accept_done (w : Word) : (s.accept w).done = false := rfl
@[simp] theorem State.accept_result (w : Word) : (s.accept w).result = .ok := rfl
@[simp] theorem State.accept_drop (w : Word) : (s.accept w).drop = false := rfl
@[simp] theorem State.accept_sr (w : Word) : (s.accept w).sr = s.sr := rfl
@[simp] theorem State.accept_policy (w : Word) : (s.accept w).policy = s.policy := rfl
@[simp] theorem State.accept_wdelay (w : Word) : (s.accept w).wdelay = s.wdelay := rfl
@[simp] theorem State.accept_limit (w : Word) : (s.accept w).limit = s.limit := rfl
@[simp] theorem State.accept_pollGap (w : Word) : (s.accept w).pollGap = s.pollGap := rfl
@[simp] theorem State.accept_buf (w : Word) : (s.accept w).buf = s.buf := rfl
@[simp] theorem State.accept_stage (w : Word) : (s.accept w).stage = s.stage := rfl
@[simp] theorem State.accept_build (w : Word) : (s.accept w).build = s.build := rfl
@[simp] theorem State.accept_pending (w : Word) : (s.accept w).pending = s.pending := rfl
@[simp] theorem State.accept_log (w : Word) : (s.accept w).log = s.log := rfl

/-! ### State.setCfg -/

@[simp] theorem State.setCfg_st (v : Word) : (s.setCfg v).st = s.st := rfl
@[simp] theorem State.setCfg_lastCmd (v : Word) : (s.setCfg v).lastCmd = s.lastCmd := rfl
@[simp] theorem State.setCfg_fk (v : Word) : (s.setCfg v).fk = s.fk := rfl
@[simp] theorem State.setCfg_si (v : Word) : (s.setCfg v).si = s.si := rfl
@[simp] theorem State.setCfg_cnt (v : Word) : (s.setCfg v).cnt = s.cnt := rfl
@[simp] theorem State.setCfg_abort (v : Word) : (s.setCfg v).abort = s.abort := rfl
@[simp] theorem State.setCfg_res (v : Word) : (s.setCfg v).res = s.res := rfl
@[simp] theorem State.setCfg_polls (v : Word) : (s.setCfg v).polls = s.polls := rfl
@[simp] theorem State.setCfg_done (v : Word) : (s.setCfg v).done = s.done := rfl
@[simp] theorem State.setCfg_result (v : Word) : (s.setCfg v).result = s.result := rfl
@[simp] theorem State.setCfg_drop (v : Word) : (s.setCfg v).drop = s.drop := rfl
@[simp] theorem State.setCfg_sr (v : Word) : (s.setCfg v).sr = s.sr := rfl
@[simp] theorem State.setCfg_policy (v : Word) : (s.setCfg v).policy = Policy.ofBit (v.getLsbD 0) := rfl
@[simp] theorem State.setCfg_wdelay (v : Word) : (s.setCfg v).wdelay = s.wdelay := rfl
@[simp] theorem State.setCfg_limit (v : Word) : (s.setCfg v).limit = s.limit := rfl
@[simp] theorem State.setCfg_pollGap (v : Word) : (s.setCfg v).pollGap = s.pollGap := rfl
@[simp] theorem State.setCfg_buf (v : Word) : (s.setCfg v).buf = s.buf := rfl
@[simp] theorem State.setCfg_stage (v : Word) : (s.setCfg v).stage = s.stage := rfl
@[simp] theorem State.setCfg_build (v : Word) : (s.setCfg v).build = s.build := rfl
@[simp] theorem State.setCfg_pending (v : Word) : (s.setCfg v).pending = s.pending := rfl
@[simp] theorem State.setCfg_log (v : Word) : (s.setCfg v).log = s.log := rfl

/-! ### State.setWdelay -/

@[simp] theorem State.setWdelay_st (v : Word) : (s.setWdelay v).st = s.st := rfl
@[simp] theorem State.setWdelay_lastCmd (v : Word) : (s.setWdelay v).lastCmd = s.lastCmd := rfl
@[simp] theorem State.setWdelay_fk (v : Word) : (s.setWdelay v).fk = s.fk := rfl
@[simp] theorem State.setWdelay_si (v : Word) : (s.setWdelay v).si = s.si := rfl
@[simp] theorem State.setWdelay_cnt (v : Word) : (s.setWdelay v).cnt = s.cnt := rfl
@[simp] theorem State.setWdelay_abort (v : Word) : (s.setWdelay v).abort = s.abort := rfl
@[simp] theorem State.setWdelay_res (v : Word) : (s.setWdelay v).res = s.res := rfl
@[simp] theorem State.setWdelay_polls (v : Word) : (s.setWdelay v).polls = s.polls := rfl
@[simp] theorem State.setWdelay_done (v : Word) : (s.setWdelay v).done = s.done := rfl
@[simp] theorem State.setWdelay_result (v : Word) : (s.setWdelay v).result = s.result := rfl
@[simp] theorem State.setWdelay_drop (v : Word) : (s.setWdelay v).drop = s.drop := rfl
@[simp] theorem State.setWdelay_sr (v : Word) : (s.setWdelay v).sr = s.sr := rfl
@[simp] theorem State.setWdelay_policy (v : Word) : (s.setWdelay v).policy = s.policy := rfl
@[simp] theorem State.setWdelay_wdelay (v : Word) : (s.setWdelay v).wdelay = v := rfl
@[simp] theorem State.setWdelay_limit (v : Word) : (s.setWdelay v).limit = s.limit := rfl
@[simp] theorem State.setWdelay_pollGap (v : Word) : (s.setWdelay v).pollGap = s.pollGap := rfl
@[simp] theorem State.setWdelay_buf (v : Word) : (s.setWdelay v).buf = s.buf := rfl
@[simp] theorem State.setWdelay_stage (v : Word) : (s.setWdelay v).stage = s.stage := rfl
@[simp] theorem State.setWdelay_build (v : Word) : (s.setWdelay v).build = s.build := rfl
@[simp] theorem State.setWdelay_pending (v : Word) : (s.setWdelay v).pending = s.pending := rfl
@[simp] theorem State.setWdelay_log (v : Word) : (s.setWdelay v).log = s.log := rfl

/-! ### State.setPollcfg -/

@[simp] theorem State.setPollcfg_st (v : Word) : (s.setPollcfg v).st = s.st := rfl
@[simp] theorem State.setPollcfg_lastCmd (v : Word) : (s.setPollcfg v).lastCmd = s.lastCmd := rfl
@[simp] theorem State.setPollcfg_fk (v : Word) : (s.setPollcfg v).fk = s.fk := rfl
@[simp] theorem State.setPollcfg_si (v : Word) : (s.setPollcfg v).si = s.si := rfl
@[simp] theorem State.setPollcfg_cnt (v : Word) : (s.setPollcfg v).cnt = s.cnt := rfl
@[simp] theorem State.setPollcfg_abort (v : Word) : (s.setPollcfg v).abort = s.abort := rfl
@[simp] theorem State.setPollcfg_res (v : Word) : (s.setPollcfg v).res = s.res := rfl
@[simp] theorem State.setPollcfg_polls (v : Word) : (s.setPollcfg v).polls = s.polls := rfl
@[simp] theorem State.setPollcfg_done (v : Word) : (s.setPollcfg v).done = s.done := rfl
@[simp] theorem State.setPollcfg_result (v : Word) : (s.setPollcfg v).result = s.result := rfl
@[simp] theorem State.setPollcfg_drop (v : Word) : (s.setPollcfg v).drop = s.drop := rfl
@[simp] theorem State.setPollcfg_sr (v : Word) : (s.setPollcfg v).sr = s.sr := rfl
@[simp] theorem State.setPollcfg_policy (v : Word) : (s.setPollcfg v).policy = s.policy := rfl
@[simp] theorem State.setPollcfg_wdelay (v : Word) : (s.setPollcfg v).wdelay = s.wdelay := rfl
@[simp] theorem State.setPollcfg_limit (v : Word) : (s.setPollcfg v).limit = if v.extractLsb' 0 16 = 0 then 1 else v.extractLsb' 0 16 := rfl
@[simp] theorem State.setPollcfg_pollGap (v : Word) : (s.setPollcfg v).pollGap = v.extractLsb' 16 16 := rfl
@[simp] theorem State.setPollcfg_buf (v : Word) : (s.setPollcfg v).buf = s.buf := rfl
@[simp] theorem State.setPollcfg_stage (v : Word) : (s.setPollcfg v).stage = s.stage := rfl
@[simp] theorem State.setPollcfg_build (v : Word) : (s.setPollcfg v).build = s.build := rfl
@[simp] theorem State.setPollcfg_pending (v : Word) : (s.setPollcfg v).pending = s.pending := rfl
@[simp] theorem State.setPollcfg_log (v : Word) : (s.setPollcfg v).log = s.log := rfl

/-! ### State.setDrop -/

@[simp] theorem State.setDrop_st : (s.setDrop).st = s.st := rfl
@[simp] theorem State.setDrop_lastCmd : (s.setDrop).lastCmd = s.lastCmd := rfl
@[simp] theorem State.setDrop_fk : (s.setDrop).fk = s.fk := rfl
@[simp] theorem State.setDrop_si : (s.setDrop).si = s.si := rfl
@[simp] theorem State.setDrop_cnt : (s.setDrop).cnt = s.cnt := rfl
@[simp] theorem State.setDrop_abort : (s.setDrop).abort = s.abort := rfl
@[simp] theorem State.setDrop_res : (s.setDrop).res = s.res := rfl
@[simp] theorem State.setDrop_polls : (s.setDrop).polls = s.polls := rfl
@[simp] theorem State.setDrop_done : (s.setDrop).done = s.done := rfl
@[simp] theorem State.setDrop_result : (s.setDrop).result = s.result := rfl
@[simp] theorem State.setDrop_drop : (s.setDrop).drop = true := rfl
@[simp] theorem State.setDrop_sr : (s.setDrop).sr = s.sr := rfl
@[simp] theorem State.setDrop_policy : (s.setDrop).policy = s.policy := rfl
@[simp] theorem State.setDrop_wdelay : (s.setDrop).wdelay = s.wdelay := rfl
@[simp] theorem State.setDrop_limit : (s.setDrop).limit = s.limit := rfl
@[simp] theorem State.setDrop_pollGap : (s.setDrop).pollGap = s.pollGap := rfl
@[simp] theorem State.setDrop_buf : (s.setDrop).buf = s.buf := rfl
@[simp] theorem State.setDrop_stage : (s.setDrop).stage = s.stage := rfl
@[simp] theorem State.setDrop_build : (s.setDrop).build = s.build := rfl
@[simp] theorem State.setDrop_pending : (s.setDrop).pending = s.pending := rfl
@[simp] theorem State.setDrop_log : (s.setDrop).log = s.log := rfl

/-! ### State.setBufWord -/

@[simp] theorem State.setBufWord_st (k : Nat) (v : Word) : (s.setBufWord k v).st = s.st := rfl
@[simp] theorem State.setBufWord_lastCmd (k : Nat) (v : Word) : (s.setBufWord k v).lastCmd = s.lastCmd := rfl
@[simp] theorem State.setBufWord_fk (k : Nat) (v : Word) : (s.setBufWord k v).fk = s.fk := rfl
@[simp] theorem State.setBufWord_si (k : Nat) (v : Word) : (s.setBufWord k v).si = s.si := rfl
@[simp] theorem State.setBufWord_cnt (k : Nat) (v : Word) : (s.setBufWord k v).cnt = s.cnt := rfl
@[simp] theorem State.setBufWord_abort (k : Nat) (v : Word) : (s.setBufWord k v).abort = s.abort := rfl
@[simp] theorem State.setBufWord_res (k : Nat) (v : Word) : (s.setBufWord k v).res = s.res := rfl
@[simp] theorem State.setBufWord_polls (k : Nat) (v : Word) : (s.setBufWord k v).polls = s.polls := rfl
@[simp] theorem State.setBufWord_done (k : Nat) (v : Word) : (s.setBufWord k v).done = s.done := rfl
@[simp] theorem State.setBufWord_result (k : Nat) (v : Word) : (s.setBufWord k v).result = s.result := rfl
@[simp] theorem State.setBufWord_drop (k : Nat) (v : Word) : (s.setBufWord k v).drop = s.drop := rfl
@[simp] theorem State.setBufWord_sr (k : Nat) (v : Word) : (s.setBufWord k v).sr = s.sr := rfl
@[simp] theorem State.setBufWord_policy (k : Nat) (v : Word) : (s.setBufWord k v).policy = s.policy := rfl
@[simp] theorem State.setBufWord_wdelay (k : Nat) (v : Word) : (s.setBufWord k v).wdelay = s.wdelay := rfl
@[simp] theorem State.setBufWord_limit (k : Nat) (v : Word) : (s.setBufWord k v).limit = s.limit := rfl
@[simp] theorem State.setBufWord_pollGap (k : Nat) (v : Word) : (s.setBufWord k v).pollGap = s.pollGap := rfl
@[simp] theorem State.setBufWord_stage (k : Nat) (v : Word) : (s.setBufWord k v).stage = s.stage := rfl
@[simp] theorem State.setBufWord_build (k : Nat) (v : Word) : (s.setBufWord k v).build = s.build := rfl
@[simp] theorem State.setBufWord_pending (k : Nat) (v : Word) : (s.setBufWord k v).pending = s.pending := rfl
@[simp] theorem State.setBufWord_log (k : Nat) (v : Word) : (s.setBufWord k v).log = s.log := rfl

/-! ### State.raise -/

@[simp] theorem State.raise_st (e : ResultCode) : (s.raise e).st = .finish := rfl
@[simp] theorem State.raise_lastCmd (e : ResultCode) : (s.raise e).lastCmd = s.lastCmd := rfl
@[simp] theorem State.raise_fk (e : ResultCode) : (s.raise e).fk = s.fk := rfl
@[simp] theorem State.raise_si (e : ResultCode) : (s.raise e).si = s.si := rfl
@[simp] theorem State.raise_cnt (e : ResultCode) : (s.raise e).cnt = s.cnt := rfl
@[simp] theorem State.raise_abort (e : ResultCode) : (s.raise e).abort = s.abort := rfl
@[simp] theorem State.raise_res (e : ResultCode) : (s.raise e).res = e := rfl
@[simp] theorem State.raise_polls (e : ResultCode) : (s.raise e).polls = s.polls := rfl
@[simp] theorem State.raise_done (e : ResultCode) : (s.raise e).done = s.done := rfl
@[simp] theorem State.raise_result (e : ResultCode) : (s.raise e).result = s.result := rfl
@[simp] theorem State.raise_drop (e : ResultCode) : (s.raise e).drop = s.drop := rfl
@[simp] theorem State.raise_sr (e : ResultCode) : (s.raise e).sr = s.sr := rfl
@[simp] theorem State.raise_policy (e : ResultCode) : (s.raise e).policy = s.policy := rfl
@[simp] theorem State.raise_wdelay (e : ResultCode) : (s.raise e).wdelay = s.wdelay := rfl
@[simp] theorem State.raise_limit (e : ResultCode) : (s.raise e).limit = s.limit := rfl
@[simp] theorem State.raise_pollGap (e : ResultCode) : (s.raise e).pollGap = s.pollGap := rfl
@[simp] theorem State.raise_buf (e : ResultCode) : (s.raise e).buf = s.buf := rfl
@[simp] theorem State.raise_stage (e : ResultCode) : (s.raise e).stage = s.stage := rfl
@[simp] theorem State.raise_build (e : ResultCode) : (s.raise e).build = s.build := rfl
@[simp] theorem State.raise_pending (e : ResultCode) : (s.raise e).pending = s.pending := rfl
@[simp] theorem State.raise_log (e : ResultCode) : (s.raise e).log = s.log := rfl

/-! ### State.raiseBusFault -/

@[simp] theorem State.raiseBusFault_st : (s.raiseBusFault).st = .gap := rfl
@[simp] theorem State.raiseBusFault_lastCmd : (s.raiseBusFault).lastCmd = s.lastCmd := rfl
@[simp] theorem State.raiseBusFault_fk : (s.raiseBusFault).fk = s.fk := rfl
@[simp] theorem State.raiseBusFault_si : (s.raiseBusFault).si = s.si := rfl
@[simp] theorem State.raiseBusFault_cnt : (s.raiseBusFault).cnt = s.build.csGap.setWidth 32 := rfl
@[simp] theorem State.raiseBusFault_abort : (s.raiseBusFault).abort = true := rfl
@[simp] theorem State.raiseBusFault_res : (s.raiseBusFault).res = .busFault := rfl
@[simp] theorem State.raiseBusFault_polls : (s.raiseBusFault).polls = s.polls := rfl
@[simp] theorem State.raiseBusFault_done : (s.raiseBusFault).done = s.done := rfl
@[simp] theorem State.raiseBusFault_result : (s.raiseBusFault).result = s.result := rfl
@[simp] theorem State.raiseBusFault_drop : (s.raiseBusFault).drop = s.drop := rfl
@[simp] theorem State.raiseBusFault_sr : (s.raiseBusFault).sr = s.sr := rfl
@[simp] theorem State.raiseBusFault_policy : (s.raiseBusFault).policy = s.policy := rfl
@[simp] theorem State.raiseBusFault_wdelay : (s.raiseBusFault).wdelay = s.wdelay := rfl
@[simp] theorem State.raiseBusFault_limit : (s.raiseBusFault).limit = s.limit := rfl
@[simp] theorem State.raiseBusFault_pollGap : (s.raiseBusFault).pollGap = s.pollGap := rfl
@[simp] theorem State.raiseBusFault_buf : (s.raiseBusFault).buf = s.buf := rfl
@[simp] theorem State.raiseBusFault_stage : (s.raiseBusFault).stage = s.stage := rfl
@[simp] theorem State.raiseBusFault_build : (s.raiseBusFault).build = s.build := rfl
@[simp] theorem State.raiseBusFault_pending : (s.raiseBusFault).pending = s.pending := rfl
@[simp] theorem State.raiseBusFault_log : (s.raiseBusFault).log = s.log := rfl

/-! ### State.finishCommand -/

@[simp] theorem State.finishCommand_st : (s.finishCommand).st = .idle := rfl
@[simp] theorem State.finishCommand_lastCmd : (s.finishCommand).lastCmd = s.lastCmd := rfl
@[simp] theorem State.finishCommand_fk : (s.finishCommand).fk = s.fk := rfl
@[simp] theorem State.finishCommand_si : (s.finishCommand).si = s.si := rfl
@[simp] theorem State.finishCommand_cnt : (s.finishCommand).cnt = s.cnt := rfl
@[simp] theorem State.finishCommand_abort : (s.finishCommand).abort = s.abort := rfl
@[simp] theorem State.finishCommand_res : (s.finishCommand).res = s.res := rfl
@[simp] theorem State.finishCommand_polls : (s.finishCommand).polls = s.polls := rfl
@[simp] theorem State.finishCommand_done : (s.finishCommand).done = true := rfl
@[simp] theorem State.finishCommand_result : (s.finishCommand).result = s.res := rfl
@[simp] theorem State.finishCommand_drop : (s.finishCommand).drop = s.drop := rfl
@[simp] theorem State.finishCommand_sr : (s.finishCommand).sr = s.sr := rfl
@[simp] theorem State.finishCommand_policy : (s.finishCommand).policy = s.policy := rfl
@[simp] theorem State.finishCommand_wdelay : (s.finishCommand).wdelay = s.wdelay := rfl
@[simp] theorem State.finishCommand_limit : (s.finishCommand).limit = s.limit := rfl
@[simp] theorem State.finishCommand_pollGap : (s.finishCommand).pollGap = s.pollGap := rfl
@[simp] theorem State.finishCommand_buf : (s.finishCommand).buf = s.buf := rfl
@[simp] theorem State.finishCommand_stage : (s.finishCommand).stage = s.stage := rfl
@[simp] theorem State.finishCommand_build : (s.finishCommand).build = s.build := rfl
@[simp] theorem State.finishCommand_pending : (s.finishCommand).pending = s.pending := rfl
@[simp] theorem State.finishCommand_log : (s.finishCommand).log = s.log := rfl

/-! ### State.toFinish -/

@[simp] theorem State.toFinish_st : (s.toFinish).st = .finish := rfl
@[simp] theorem State.toFinish_lastCmd : (s.toFinish).lastCmd = s.lastCmd := rfl
@[simp] theorem State.toFinish_fk : (s.toFinish).fk = s.fk := rfl
@[simp] theorem State.toFinish_si : (s.toFinish).si = s.si := rfl
@[simp] theorem State.toFinish_cnt : (s.toFinish).cnt = s.cnt := rfl
@[simp] theorem State.toFinish_abort : (s.toFinish).abort = s.abort := rfl
@[simp] theorem State.toFinish_res : (s.toFinish).res = s.res := rfl
@[simp] theorem State.toFinish_polls : (s.toFinish).polls = s.polls := rfl
@[simp] theorem State.toFinish_done : (s.toFinish).done = s.done := rfl
@[simp] theorem State.toFinish_result : (s.toFinish).result = s.result := rfl
@[simp] theorem State.toFinish_drop : (s.toFinish).drop = s.drop := rfl
@[simp] theorem State.toFinish_sr : (s.toFinish).sr = s.sr := rfl
@[simp] theorem State.toFinish_policy : (s.toFinish).policy = s.policy := rfl
@[simp] theorem State.toFinish_wdelay : (s.toFinish).wdelay = s.wdelay := rfl
@[simp] theorem State.toFinish_limit : (s.toFinish).limit = s.limit := rfl
@[simp] theorem State.toFinish_pollGap : (s.toFinish).pollGap = s.pollGap := rfl
@[simp] theorem State.toFinish_buf : (s.toFinish).buf = s.buf := rfl
@[simp] theorem State.toFinish_stage : (s.toFinish).stage = s.stage := rfl
@[simp] theorem State.toFinish_build : (s.toFinish).build = s.build := rfl
@[simp] theorem State.toFinish_pending : (s.toFinish).pending = s.pending := rfl
@[simp] theorem State.toFinish_log : (s.toFinish).log = s.log := rfl

/-! ### State.openFrame -/

@[simp] theorem State.openFrame_st (fk : FrameKind) : (s.openFrame fk).st = .assert := rfl
@[simp] theorem State.openFrame_lastCmd (fk : FrameKind) : (s.openFrame fk).lastCmd = s.lastCmd := rfl
@[simp] theorem State.openFrame_fk (fk : FrameKind) : (s.openFrame fk).fk = fk := rfl
@[simp] theorem State.openFrame_si (fk : FrameKind) : (s.openFrame fk).si = s.si := rfl
@[simp] theorem State.openFrame_cnt (fk : FrameKind) : (s.openFrame fk).cnt = s.cnt := rfl
@[simp] theorem State.openFrame_abort (fk : FrameKind) : (s.openFrame fk).abort = s.abort := rfl
@[simp] theorem State.openFrame_res (fk : FrameKind) : (s.openFrame fk).res = s.res := rfl
@[simp] theorem State.openFrame_polls (fk : FrameKind) : (s.openFrame fk).polls = s.polls := rfl
@[simp] theorem State.openFrame_done (fk : FrameKind) : (s.openFrame fk).done = s.done := rfl
@[simp] theorem State.openFrame_result (fk : FrameKind) : (s.openFrame fk).result = s.result := rfl
@[simp] theorem State.openFrame_drop (fk : FrameKind) : (s.openFrame fk).drop = s.drop := rfl
@[simp] theorem State.openFrame_sr (fk : FrameKind) : (s.openFrame fk).sr = s.sr := rfl
@[simp] theorem State.openFrame_policy (fk : FrameKind) : (s.openFrame fk).policy = s.policy := rfl
@[simp] theorem State.openFrame_wdelay (fk : FrameKind) : (s.openFrame fk).wdelay = s.wdelay := rfl
@[simp] theorem State.openFrame_limit (fk : FrameKind) : (s.openFrame fk).limit = s.limit := rfl
@[simp] theorem State.openFrame_pollGap (fk : FrameKind) : (s.openFrame fk).pollGap = s.pollGap := rfl
@[simp] theorem State.openFrame_buf (fk : FrameKind) : (s.openFrame fk).buf = s.buf := rfl
@[simp] theorem State.openFrame_stage (fk : FrameKind) : (s.openFrame fk).stage = s.stage := rfl
@[simp] theorem State.openFrame_build (fk : FrameKind) : (s.openFrame fk).build = s.build := rfl
@[simp] theorem State.openFrame_pending (fk : FrameKind) : (s.openFrame fk).pending = s.pending := rfl
@[simp] theorem State.openFrame_log (fk : FrameKind) : (s.openFrame fk).log = s.log := rfl

/-! ### State.assertEdge -/

@[simp] theorem State.assertEdge_st : (s.assertEdge).st = .xfer := rfl
@[simp] theorem State.assertEdge_lastCmd : (s.assertEdge).lastCmd = s.lastCmd := rfl
@[simp] theorem State.assertEdge_fk : (s.assertEdge).fk = s.fk := rfl
@[simp] theorem State.assertEdge_si : (s.assertEdge).si = 0 := rfl
@[simp] theorem State.assertEdge_cnt : (s.assertEdge).cnt = s.cnt := rfl
@[simp] theorem State.assertEdge_abort : (s.assertEdge).abort = s.abort := rfl
@[simp] theorem State.assertEdge_res : (s.assertEdge).res = s.res := rfl
@[simp] theorem State.assertEdge_polls : (s.assertEdge).polls = s.polls := rfl
@[simp] theorem State.assertEdge_done : (s.assertEdge).done = s.done := rfl
@[simp] theorem State.assertEdge_result : (s.assertEdge).result = s.result := rfl
@[simp] theorem State.assertEdge_drop : (s.assertEdge).drop = s.drop := rfl
@[simp] theorem State.assertEdge_sr : (s.assertEdge).sr = s.sr := rfl
@[simp] theorem State.assertEdge_policy : (s.assertEdge).policy = s.policy := rfl
@[simp] theorem State.assertEdge_wdelay : (s.assertEdge).wdelay = s.wdelay := rfl
@[simp] theorem State.assertEdge_limit : (s.assertEdge).limit = s.limit := rfl
@[simp] theorem State.assertEdge_pollGap : (s.assertEdge).pollGap = s.pollGap := rfl
@[simp] theorem State.assertEdge_buf : (s.assertEdge).buf = s.buf := rfl
@[simp] theorem State.assertEdge_stage : (s.assertEdge).stage = s.stage := rfl
@[simp] theorem State.assertEdge_build : (s.assertEdge).build = s.build := rfl
@[simp] theorem State.assertEdge_pending : (s.assertEdge).pending = s.pending := rfl
@[simp] theorem State.assertEdge_log : (s.assertEdge).log = s.log := rfl

/-! ### State.setSr -/

@[simp] theorem State.setSr_st (rx : Byte) : (s.setSr rx).st = s.st := rfl
@[simp] theorem State.setSr_lastCmd (rx : Byte) : (s.setSr rx).lastCmd = s.lastCmd := rfl
@[simp] theorem State.setSr_fk (rx : Byte) : (s.setSr rx).fk = s.fk := rfl
@[simp] theorem State.setSr_si (rx : Byte) : (s.setSr rx).si = s.si := rfl
@[simp] theorem State.setSr_cnt (rx : Byte) : (s.setSr rx).cnt = s.cnt := rfl
@[simp] theorem State.setSr_abort (rx : Byte) : (s.setSr rx).abort = s.abort := rfl
@[simp] theorem State.setSr_res (rx : Byte) : (s.setSr rx).res = s.res := rfl
@[simp] theorem State.setSr_polls (rx : Byte) : (s.setSr rx).polls = s.polls := rfl
@[simp] theorem State.setSr_done (rx : Byte) : (s.setSr rx).done = s.done := rfl
@[simp] theorem State.setSr_result (rx : Byte) : (s.setSr rx).result = s.result := rfl
@[simp] theorem State.setSr_drop (rx : Byte) : (s.setSr rx).drop = s.drop := rfl
@[simp] theorem State.setSr_sr (rx : Byte) : (s.setSr rx).sr = rx := rfl
@[simp] theorem State.setSr_policy (rx : Byte) : (s.setSr rx).policy = s.policy := rfl
@[simp] theorem State.setSr_wdelay (rx : Byte) : (s.setSr rx).wdelay = s.wdelay := rfl
@[simp] theorem State.setSr_limit (rx : Byte) : (s.setSr rx).limit = s.limit := rfl
@[simp] theorem State.setSr_pollGap (rx : Byte) : (s.setSr rx).pollGap = s.pollGap := rfl
@[simp] theorem State.setSr_buf (rx : Byte) : (s.setSr rx).buf = s.buf := rfl
@[simp] theorem State.setSr_stage (rx : Byte) : (s.setSr rx).stage = s.stage := rfl
@[simp] theorem State.setSr_build (rx : Byte) : (s.setSr rx).build = s.build := rfl
@[simp] theorem State.setSr_pending (rx : Byte) : (s.setSr rx).pending = s.pending := rfl
@[simp] theorem State.setSr_log (rx : Byte) : (s.setSr rx).log = s.log := rfl

/-! ### State.nextSlot -/

@[simp] theorem State.nextSlot_st : (s.nextSlot).st = s.st := rfl
@[simp] theorem State.nextSlot_lastCmd : (s.nextSlot).lastCmd = s.lastCmd := rfl
@[simp] theorem State.nextSlot_fk : (s.nextSlot).fk = s.fk := rfl
@[simp] theorem State.nextSlot_si : (s.nextSlot).si = s.si + 1 := rfl
@[simp] theorem State.nextSlot_cnt : (s.nextSlot).cnt = s.cnt := rfl
@[simp] theorem State.nextSlot_abort : (s.nextSlot).abort = s.abort := rfl
@[simp] theorem State.nextSlot_res : (s.nextSlot).res = s.res := rfl
@[simp] theorem State.nextSlot_polls : (s.nextSlot).polls = s.polls := rfl
@[simp] theorem State.nextSlot_done : (s.nextSlot).done = s.done := rfl
@[simp] theorem State.nextSlot_result : (s.nextSlot).result = s.result := rfl
@[simp] theorem State.nextSlot_drop : (s.nextSlot).drop = s.drop := rfl
@[simp] theorem State.nextSlot_sr : (s.nextSlot).sr = s.sr := rfl
@[simp] theorem State.nextSlot_policy : (s.nextSlot).policy = s.policy := rfl
@[simp] theorem State.nextSlot_wdelay : (s.nextSlot).wdelay = s.wdelay := rfl
@[simp] theorem State.nextSlot_limit : (s.nextSlot).limit = s.limit := rfl
@[simp] theorem State.nextSlot_pollGap : (s.nextSlot).pollGap = s.pollGap := rfl
@[simp] theorem State.nextSlot_buf : (s.nextSlot).buf = s.buf := rfl
@[simp] theorem State.nextSlot_stage : (s.nextSlot).stage = s.stage := rfl
@[simp] theorem State.nextSlot_build : (s.nextSlot).build = s.build := rfl
@[simp] theorem State.nextSlot_pending : (s.nextSlot).pending = s.pending := rfl
@[simp] theorem State.nextSlot_log : (s.nextSlot).log = s.log := rfl

/-! ### State.countPoll -/

@[simp] theorem State.countPoll_st : (s.countPoll).st = s.st := rfl
@[simp] theorem State.countPoll_lastCmd : (s.countPoll).lastCmd = s.lastCmd := rfl
@[simp] theorem State.countPoll_fk : (s.countPoll).fk = s.fk := rfl
@[simp] theorem State.countPoll_si : (s.countPoll).si = s.si := rfl
@[simp] theorem State.countPoll_cnt : (s.countPoll).cnt = s.cnt := rfl
@[simp] theorem State.countPoll_abort : (s.countPoll).abort = s.abort := rfl
@[simp] theorem State.countPoll_res : (s.countPoll).res = s.res := rfl
@[simp] theorem State.countPoll_polls : (s.countPoll).polls = s.polls + 1 := rfl
@[simp] theorem State.countPoll_done : (s.countPoll).done = s.done := rfl
@[simp] theorem State.countPoll_result : (s.countPoll).result = s.result := rfl
@[simp] theorem State.countPoll_drop : (s.countPoll).drop = s.drop := rfl
@[simp] theorem State.countPoll_sr : (s.countPoll).sr = s.sr := rfl
@[simp] theorem State.countPoll_policy : (s.countPoll).policy = s.policy := rfl
@[simp] theorem State.countPoll_wdelay : (s.countPoll).wdelay = s.wdelay := rfl
@[simp] theorem State.countPoll_limit : (s.countPoll).limit = s.limit := rfl
@[simp] theorem State.countPoll_pollGap : (s.countPoll).pollGap = s.pollGap := rfl
@[simp] theorem State.countPoll_buf : (s.countPoll).buf = s.buf := rfl
@[simp] theorem State.countPoll_stage : (s.countPoll).stage = s.stage := rfl
@[simp] theorem State.countPoll_build : (s.countPoll).build = s.build := rfl
@[simp] theorem State.countPoll_pending : (s.countPoll).pending = s.pending := rfl
@[simp] theorem State.countPoll_log : (s.countPoll).log = s.log := rfl

/-! ### State.closeFrame -/

@[simp] theorem State.closeFrame_st : (s.closeFrame).st = .gap := rfl
@[simp] theorem State.closeFrame_lastCmd : (s.closeFrame).lastCmd = s.lastCmd := rfl
@[simp] theorem State.closeFrame_fk : (s.closeFrame).fk = s.fk := rfl
@[simp] theorem State.closeFrame_si : (s.closeFrame).si = s.si := rfl
@[simp] theorem State.closeFrame_cnt : (s.closeFrame).cnt = s.build.csGap.setWidth 32 := rfl
@[simp] theorem State.closeFrame_abort : (s.closeFrame).abort = s.abort := rfl
@[simp] theorem State.closeFrame_res : (s.closeFrame).res = s.res := rfl
@[simp] theorem State.closeFrame_polls : (s.closeFrame).polls = s.polls := rfl
@[simp] theorem State.closeFrame_done : (s.closeFrame).done = s.done := rfl
@[simp] theorem State.closeFrame_result : (s.closeFrame).result = s.result := rfl
@[simp] theorem State.closeFrame_drop : (s.closeFrame).drop = s.drop := rfl
@[simp] theorem State.closeFrame_sr : (s.closeFrame).sr = s.sr := rfl
@[simp] theorem State.closeFrame_policy : (s.closeFrame).policy = s.policy := rfl
@[simp] theorem State.closeFrame_wdelay : (s.closeFrame).wdelay = s.wdelay := rfl
@[simp] theorem State.closeFrame_limit : (s.closeFrame).limit = s.limit := rfl
@[simp] theorem State.closeFrame_pollGap : (s.closeFrame).pollGap = s.pollGap := rfl
@[simp] theorem State.closeFrame_buf : (s.closeFrame).buf = s.buf := rfl
@[simp] theorem State.closeFrame_stage : (s.closeFrame).stage = s.stage := rfl
@[simp] theorem State.closeFrame_build : (s.closeFrame).build = s.build := rfl
@[simp] theorem State.closeFrame_pending : (s.closeFrame).pending = s.pending := rfl
@[simp] theorem State.closeFrame_log : (s.closeFrame).log = s.log := rfl

/-! ### State.countDown -/

@[simp] theorem State.countDown_st : (s.countDown).st = s.st := rfl
@[simp] theorem State.countDown_lastCmd : (s.countDown).lastCmd = s.lastCmd := rfl
@[simp] theorem State.countDown_fk : (s.countDown).fk = s.fk := rfl
@[simp] theorem State.countDown_si : (s.countDown).si = s.si := rfl
@[simp] theorem State.countDown_cnt : (s.countDown).cnt = s.cnt - 1 := rfl
@[simp] theorem State.countDown_abort : (s.countDown).abort = s.abort := rfl
@[simp] theorem State.countDown_res : (s.countDown).res = s.res := rfl
@[simp] theorem State.countDown_polls : (s.countDown).polls = s.polls := rfl
@[simp] theorem State.countDown_done : (s.countDown).done = s.done := rfl
@[simp] theorem State.countDown_result : (s.countDown).result = s.result := rfl
@[simp] theorem State.countDown_drop : (s.countDown).drop = s.drop := rfl
@[simp] theorem State.countDown_sr : (s.countDown).sr = s.sr := rfl
@[simp] theorem State.countDown_policy : (s.countDown).policy = s.policy := rfl
@[simp] theorem State.countDown_wdelay : (s.countDown).wdelay = s.wdelay := rfl
@[simp] theorem State.countDown_limit : (s.countDown).limit = s.limit := rfl
@[simp] theorem State.countDown_pollGap : (s.countDown).pollGap = s.pollGap := rfl
@[simp] theorem State.countDown_buf : (s.countDown).buf = s.buf := rfl
@[simp] theorem State.countDown_stage : (s.countDown).stage = s.stage := rfl
@[simp] theorem State.countDown_build : (s.countDown).build = s.build := rfl
@[simp] theorem State.countDown_pending : (s.countDown).pending = s.pending := rfl
@[simp] theorem State.countDown_log : (s.countDown).log = s.log := rfl

/-! ### State.startDelay -/

@[simp] theorem State.startDelay_st : (s.startDelay).st = .delay := rfl
@[simp] theorem State.startDelay_lastCmd : (s.startDelay).lastCmd = s.lastCmd := rfl
@[simp] theorem State.startDelay_fk : (s.startDelay).fk = s.fk := rfl
@[simp] theorem State.startDelay_si : (s.startDelay).si = s.si := rfl
@[simp] theorem State.startDelay_cnt : (s.startDelay).cnt = s.wdelay := rfl
@[simp] theorem State.startDelay_abort : (s.startDelay).abort = s.abort := rfl
@[simp] theorem State.startDelay_res : (s.startDelay).res = s.res := rfl
@[simp] theorem State.startDelay_polls : (s.startDelay).polls = s.polls := rfl
@[simp] theorem State.startDelay_done : (s.startDelay).done = s.done := rfl
@[simp] theorem State.startDelay_result : (s.startDelay).result = s.result := rfl
@[simp] theorem State.startDelay_drop : (s.startDelay).drop = s.drop := rfl
@[simp] theorem State.startDelay_sr : (s.startDelay).sr = s.sr := rfl
@[simp] theorem State.startDelay_policy : (s.startDelay).policy = s.policy := rfl
@[simp] theorem State.startDelay_wdelay : (s.startDelay).wdelay = s.wdelay := rfl
@[simp] theorem State.startDelay_limit : (s.startDelay).limit = s.limit := rfl
@[simp] theorem State.startDelay_pollGap : (s.startDelay).pollGap = s.pollGap := rfl
@[simp] theorem State.startDelay_buf : (s.startDelay).buf = s.buf := rfl
@[simp] theorem State.startDelay_stage : (s.startDelay).stage = s.stage := rfl
@[simp] theorem State.startDelay_build : (s.startDelay).build = s.build := rfl
@[simp] theorem State.startDelay_pending : (s.startDelay).pending = s.pending := rfl
@[simp] theorem State.startDelay_log : (s.startDelay).log = s.log := rfl

/-! ### State.startPollGap -/

@[simp] theorem State.startPollGap_st : (s.startPollGap).st = .pgap := rfl
@[simp] theorem State.startPollGap_lastCmd : (s.startPollGap).lastCmd = s.lastCmd := rfl
@[simp] theorem State.startPollGap_fk : (s.startPollGap).fk = s.fk := rfl
@[simp] theorem State.startPollGap_si : (s.startPollGap).si = s.si := rfl
@[simp] theorem State.startPollGap_cnt : (s.startPollGap).cnt = s.pollGap.setWidth 32 := rfl
@[simp] theorem State.startPollGap_abort : (s.startPollGap).abort = s.abort := rfl
@[simp] theorem State.startPollGap_res : (s.startPollGap).res = s.res := rfl
@[simp] theorem State.startPollGap_polls : (s.startPollGap).polls = s.polls := rfl
@[simp] theorem State.startPollGap_done : (s.startPollGap).done = s.done := rfl
@[simp] theorem State.startPollGap_result : (s.startPollGap).result = s.result := rfl
@[simp] theorem State.startPollGap_drop : (s.startPollGap).drop = s.drop := rfl
@[simp] theorem State.startPollGap_sr : (s.startPollGap).sr = s.sr := rfl
@[simp] theorem State.startPollGap_policy : (s.startPollGap).policy = s.policy := rfl
@[simp] theorem State.startPollGap_wdelay : (s.startPollGap).wdelay = s.wdelay := rfl
@[simp] theorem State.startPollGap_limit : (s.startPollGap).limit = s.limit := rfl
@[simp] theorem State.startPollGap_pollGap : (s.startPollGap).pollGap = s.pollGap := rfl
@[simp] theorem State.startPollGap_buf : (s.startPollGap).buf = s.buf := rfl
@[simp] theorem State.startPollGap_stage : (s.startPollGap).stage = s.stage := rfl
@[simp] theorem State.startPollGap_build : (s.startPollGap).build = s.build := rfl
@[simp] theorem State.startPollGap_pending : (s.startPollGap).pending = s.pending := rfl
@[simp] theorem State.startPollGap_log : (s.startPollGap).log = s.log := rfl

/-! ### State.reassert -/

@[simp] theorem State.reassert_st : (s.reassert).st = .assert := rfl
@[simp] theorem State.reassert_lastCmd : (s.reassert).lastCmd = s.lastCmd := rfl
@[simp] theorem State.reassert_fk : (s.reassert).fk = s.fk := rfl
@[simp] theorem State.reassert_si : (s.reassert).si = s.si := rfl
@[simp] theorem State.reassert_cnt : (s.reassert).cnt = s.cnt := rfl
@[simp] theorem State.reassert_abort : (s.reassert).abort = s.abort := rfl
@[simp] theorem State.reassert_res : (s.reassert).res = s.res := rfl
@[simp] theorem State.reassert_polls : (s.reassert).polls = s.polls := rfl
@[simp] theorem State.reassert_done : (s.reassert).done = s.done := rfl
@[simp] theorem State.reassert_result : (s.reassert).result = s.result := rfl
@[simp] theorem State.reassert_drop : (s.reassert).drop = s.drop := rfl
@[simp] theorem State.reassert_sr : (s.reassert).sr = s.sr := rfl
@[simp] theorem State.reassert_policy : (s.reassert).policy = s.policy := rfl
@[simp] theorem State.reassert_wdelay : (s.reassert).wdelay = s.wdelay := rfl
@[simp] theorem State.reassert_limit : (s.reassert).limit = s.limit := rfl
@[simp] theorem State.reassert_pollGap : (s.reassert).pollGap = s.pollGap := rfl
@[simp] theorem State.reassert_buf : (s.reassert).buf = s.buf := rfl
@[simp] theorem State.reassert_stage : (s.reassert).stage = s.stage := rfl
@[simp] theorem State.reassert_build : (s.reassert).build = s.build := rfl
@[simp] theorem State.reassert_pending : (s.reassert).pending = s.pending := rfl
@[simp] theorem State.reassert_log : (s.reassert).log = s.log := rfl

/-! ### State.withPending -/

@[simp] theorem State.withPending_st (xs : List CycleIn) : (s.withPending xs).st = s.st := rfl
@[simp] theorem State.withPending_lastCmd (xs : List CycleIn) : (s.withPending xs).lastCmd = s.lastCmd := rfl
@[simp] theorem State.withPending_fk (xs : List CycleIn) : (s.withPending xs).fk = s.fk := rfl
@[simp] theorem State.withPending_si (xs : List CycleIn) : (s.withPending xs).si = s.si := rfl
@[simp] theorem State.withPending_cnt (xs : List CycleIn) : (s.withPending xs).cnt = s.cnt := rfl
@[simp] theorem State.withPending_abort (xs : List CycleIn) : (s.withPending xs).abort = s.abort := rfl
@[simp] theorem State.withPending_res (xs : List CycleIn) : (s.withPending xs).res = s.res := rfl
@[simp] theorem State.withPending_polls (xs : List CycleIn) : (s.withPending xs).polls = s.polls := rfl
@[simp] theorem State.withPending_done (xs : List CycleIn) : (s.withPending xs).done = s.done := rfl
@[simp] theorem State.withPending_result (xs : List CycleIn) : (s.withPending xs).result = s.result := rfl
@[simp] theorem State.withPending_drop (xs : List CycleIn) : (s.withPending xs).drop = s.drop := rfl
@[simp] theorem State.withPending_sr (xs : List CycleIn) : (s.withPending xs).sr = s.sr := rfl
@[simp] theorem State.withPending_policy (xs : List CycleIn) : (s.withPending xs).policy = s.policy := rfl
@[simp] theorem State.withPending_wdelay (xs : List CycleIn) : (s.withPending xs).wdelay = s.wdelay := rfl
@[simp] theorem State.withPending_limit (xs : List CycleIn) : (s.withPending xs).limit = s.limit := rfl
@[simp] theorem State.withPending_pollGap (xs : List CycleIn) : (s.withPending xs).pollGap = s.pollGap := rfl
@[simp] theorem State.withPending_buf (xs : List CycleIn) : (s.withPending xs).buf = s.buf := rfl
@[simp] theorem State.withPending_stage (xs : List CycleIn) : (s.withPending xs).stage = s.stage := rfl
@[simp] theorem State.withPending_build (xs : List CycleIn) : (s.withPending xs).build = s.build := rfl
@[simp] theorem State.withPending_pending (xs : List CycleIn) : (s.withPending xs).pending = xs := rfl
@[simp] theorem State.withPending_log (xs : List CycleIn) : (s.withPending xs).log = s.log := rfl

/-! ### State.resetEdge and State.cycle -/

@[simp] theorem State.resetEdge_st : s.resetEdge.st = .idle := rfl
@[simp] theorem State.resetEdge_lastCmd : s.resetEdge.lastCmd = 0 := rfl
@[simp] theorem State.resetEdge_fk : s.resetEdge.fk = .wren := rfl
@[simp] theorem State.resetEdge_si : s.resetEdge.si = 0 := rfl
@[simp] theorem State.resetEdge_cnt : s.resetEdge.cnt = 0 := rfl
@[simp] theorem State.resetEdge_abort : s.resetEdge.abort = false := rfl
@[simp] theorem State.resetEdge_res : s.resetEdge.res = .ok := rfl
@[simp] theorem State.resetEdge_polls : s.resetEdge.polls = 0 := rfl
@[simp] theorem State.resetEdge_done : s.resetEdge.done = false := rfl
@[simp] theorem State.resetEdge_result : s.resetEdge.result = .ok := rfl
@[simp] theorem State.resetEdge_drop : s.resetEdge.drop = false := rfl
@[simp] theorem State.resetEdge_sr : s.resetEdge.sr = 0 := rfl
@[simp] theorem State.resetEdge_policy : s.resetEdge.policy = .pollStatus := rfl
@[simp] theorem State.resetEdge_wdelay : s.resetEdge.wdelay = s.build.writeDelayRst := rfl
@[simp] theorem State.resetEdge_limit : s.resetEdge.limit = s.build.pollLimitRst := rfl
@[simp] theorem State.resetEdge_pollGap : s.resetEdge.pollGap = s.build.pollGapRst := rfl
@[simp] theorem State.resetEdge_buf : s.resetEdge.buf = s.buf := rfl
@[simp] theorem State.resetEdge_stage : s.resetEdge.stage = s.stage := rfl
@[simp] theorem State.resetEdge_build : s.resetEdge.build = s.build := rfl
@[simp] theorem State.resetEdge_pending : s.resetEdge.pending = s.pending := rfl
@[simp] theorem State.resetEdge_log : s.resetEdge.log = s.log := rfl

@[simp] theorem State.cycle_st (x : CycleIn) : (s.cycle x).st = (s.edge x).st := rfl
@[simp] theorem State.cycle_lastCmd (x : CycleIn) : (s.cycle x).lastCmd = (s.edge x).lastCmd := rfl
@[simp] theorem State.cycle_fk (x : CycleIn) : (s.cycle x).fk = (s.edge x).fk := rfl
@[simp] theorem State.cycle_si (x : CycleIn) : (s.cycle x).si = (s.edge x).si := rfl
@[simp] theorem State.cycle_cnt (x : CycleIn) : (s.cycle x).cnt = (s.edge x).cnt := rfl
@[simp] theorem State.cycle_abort (x : CycleIn) : (s.cycle x).abort = (s.edge x).abort := rfl
@[simp] theorem State.cycle_res (x : CycleIn) : (s.cycle x).res = (s.edge x).res := rfl
@[simp] theorem State.cycle_polls (x : CycleIn) : (s.cycle x).polls = (s.edge x).polls := rfl
@[simp] theorem State.cycle_done (x : CycleIn) : (s.cycle x).done = (s.edge x).done := rfl
@[simp] theorem State.cycle_result (x : CycleIn) : (s.cycle x).result = (s.edge x).result := rfl
@[simp] theorem State.cycle_drop (x : CycleIn) : (s.cycle x).drop = (s.edge x).drop := rfl
@[simp] theorem State.cycle_sr (x : CycleIn) : (s.cycle x).sr = (s.edge x).sr := rfl
@[simp] theorem State.cycle_policy (x : CycleIn) : (s.cycle x).policy = (s.edge x).policy := rfl
@[simp] theorem State.cycle_wdelay (x : CycleIn) : (s.cycle x).wdelay = (s.edge x).wdelay := rfl
@[simp] theorem State.cycle_limit (x : CycleIn) : (s.cycle x).limit = (s.edge x).limit := rfl
@[simp] theorem State.cycle_pollGap (x : CycleIn) : (s.cycle x).pollGap = (s.edge x).pollGap := rfl
@[simp] theorem State.cycle_buf (x : CycleIn) : (s.cycle x).buf = (s.edge x).buf := rfl
@[simp] theorem State.cycle_stage (x : CycleIn) : (s.cycle x).stage = (s.edge x).stage := rfl
@[simp] theorem State.cycle_build (x : CycleIn) : (s.cycle x).build = (s.edge x).build := rfl
@[simp] theorem State.cycle_pending (x : CycleIn) : (s.cycle x).pending = (s.edge x).pending := rfl
@[simp] theorem State.cycle_log (x : CycleIn) : (s.cycle x).log = s.log ++ [⟨x, s.outputs x⟩] := rfl

end Sys2Proof.Machine
end

