-- ==== Sys2Proof/Laws/Ops.lean ====
section
/-! SUPPORT. For each shared operation, once, everything that it can do. -/

namespace Sys2Proof.Machine

/-! ### The buffers of the state -/

theorem State.wf_setBufWord {s : State} (h : s.buf.wf) (k : Nat) (v : Word) : (s.setBufWord k v).buf.wf :=
  Memory.wf_writeBelow (Memory.wf_writeBelow (Memory.wf_writeBelow (Memory.wf_writeBelow h _ _ _) _ _ _) _ _ _) _ _ _

theorem State.below_setBufWord {s : State} (h : s.buf.Below s.build.bufBytes) (k : Nat) (v : Word) :
    (s.setBufWord k v).buf.Below s.build.bufBytes :=
  Memory.below_writeBelow (Memory.below_writeBelow (Memory.below_writeBelow (Memory.below_writeBelow h _ _) _ _) _ _) _ _

theorem State.wf_setStage {s : State} (h : s.stage.wf) (i : Nat) (b : Byte) : (s.setStage i b).stage.wf :=
  Memory.wf_writeBelow h _ _ _

theorem State.wf_commitStage {s : State} (h : s.buf.wf) (n : Nat) : (s.commitStage n).buf.wf :=
  Memory.wf_copyFrom h _

theorem State.below_setStage {s : State} (h : s.stage.Below s.build.bufBytes) (i : Nat) (b : Byte) :
    (s.setStage i b).stage.Below s.build.bufBytes :=
  Memory.below_writeBelow h _ _

theorem State.below_commitStage {s : State} (h : s.buf.Below s.build.bufBytes) (n : Nat) :
    (s.commitStage n).buf.Below s.build.bufBytes :=
  Memory.below_copyFrom h _ (Nat.min_le_right _ _)

/-- One byte of STAGE after a write of one byte. -/
theorem State.read_setStage {s : State} (h : s.stage.wf) (i : Nat) (b : Byte) (j : Nat) :
    (s.setStage i b).stage.read j = if j = i ∧ i < s.build.bufBytes then b else s.stage.read j :=
  Memory.read_writeBelow h _ _ _ _

/-- One byte of BUF after the copy of STAGE. -/
theorem State.read_commitStage {s : State} (h : s.buf.wf) (n j : Nat) :
    (s.commitStage n).buf.read j = if j < n ∧ j < s.build.bufBytes then s.stage.read j else s.buf.read j := by
  rw [State.commitStage_buf, Memory.read_copyFrom h]
  simp

/-! ### The host port -/

/-- CMD is reached by a 32-bit access at offset 0 alone. -/
theorem hostTarget_eq_cmd {b : Build} {off : BitVec 9} {size : Nat} (h : hostTarget b off size = some .cmd) :
    off = 0x000 ∧ size = 4 := by
  unfold hostTarget hostReg at h
  split_ifs at h <;> simp_all

/-- What the host can do to a busy block: nothing, or set DROP. -/
theorem State.hostEffect_of_busy {s : State} (h : s.st ≠ .idle) (a : HostAccess) :
    s.hostEffect a = s ∨ s.hostEffect a = s.setDrop := by
  cases a with
  | nothing => exact .inl rfl
  | read off size => exact .inl rfl
  | write off size v =>
    simp only [State.hostEffect, if_neg h]
    cases hostTarget s.build off size with
    | none => exact .inl rfl
    | some r => cases r <;> simp [State.dropWrite]

/-- What the host can do to an idle block: nothing, issue a command, or write one register. -/
theorem State.hostEffect_of_idle {s : State} (h : s.st = .idle) (a : HostAccess) :
    s.hostEffect a = s ∨ (∃ w, a = hw 0x000 w ∧ s.hostEffect a = s.accept w) ∨ (∃ v, s.hostEffect a = s.setCfg v) ∨
      (∃ v, s.hostEffect a = s.setWdelay v) ∨ (∃ v, s.hostEffect a = s.setPollcfg v) ∨
      ∃ k v, s.hostEffect a = s.setBufWord k v := by
  cases a with
  | nothing => exact .inl rfl
  | read off size => exact .inl rfl
  | write off size v =>
    simp only [State.hostEffect, h, if_true]
    cases ht : hostTarget s.build off size with
    | none => exact .inl rfl
    | some r =>
      cases r with
      | cmd =>
        obtain ⟨rfl, rfl⟩ := hostTarget_eq_cmd ht
        exact .inr (.inl ⟨v, rfl, rfl⟩)
      | stat => exact .inl rfl
      | cfg => exact .inr (.inr (.inl ⟨v, rfl⟩))
      | wdelay => exact .inr (.inr (.inr (.inl ⟨v, rfl⟩)))
      | pollcfg => exact .inr (.inr (.inr (.inr (.inl ⟨v, rfl⟩))))
      | pollcnt => exact .inl rfl
      | bufWord k => exact .inr (.inr (.inr (.inr (.inr ⟨k, v, rfl⟩))))

/-- A write of CMD to an idle block is the acceptance of its word. -/
theorem State.hostEffect_hw_cmd {s : State} (h : s.st = .idle) (w : Word) : s.hostEffect (hw 0x000 w) = s.accept w := by
  simp [hw, State.hostEffect, hostTarget, hostReg, h, State.writeReg]

@[simp] theorem State.hostEffect_nothing (s : State) : s.hostEffect .nothing = s := rfl

@[simp] theorem State.hostEffect_read (s : State) (off : BitVec 9) (size : Nat) : s.hostEffect (.read off size) = s := rfl

/-! ### The transitions -/

/-- What a capture can do: write one byte of STAGE, write SR, or nothing. -/
theorem State.capture_cases (s : State) (fk : FrameKind) (k : Nat) (rx : Byte) :
    (fk = .read ∧ 3 ≤ k ∧ k < 3 + s.curArg.toNat ∧ s.capture fk k rx = s.setStage (k - 3) rx) ∨
    ((fk = .rdsr ∨ fk = .poll) ∧ k = 1 ∧ s.capture fk k rx = s.setSr rx) ∨ s.capture fk k rx = s := by
  cases fk <;> simp only [State.capture] <;> (try split) <;> simp_all

/-- What a whole frame does to the state: a READ's copy into BUF, the count of a poll, or nothing. -/
theorem State.frameEffect_cases (s : State) (fk : FrameKind) :
    (fk = .read ∧ s.frameEffect fk = s.commitStage s.curArg.toNat) ∨
    (fk = .poll ∧ s.frameEffect fk = s.countPoll) ∨ (fk ≠ .read ∧ fk ≠ .poll ∧ s.frameEffect fk = s) := by
  cases fk <;> simp [State.frameEffect]

/-- What CHECK can do (R122, R123). -/
theorem State.checkEdge_cases (s : State) :
    (s.validCommand = true ∧ s.checkEdge = s.openFrame (firstFrame s.curOpc)) ∨
    (s.validCommand = false ∧ s.checkEdge = s.raise .invalidArgument) := by
  unfold State.checkEdge; split <;> simp_all

/-- What XFER can do (R125 to R128). -/
theorem State.xferEdge_cases (s : State) (x : CycleIn) :
    (x.xferDone = false ∧ s.xferEdge x = s) ∨
    (x.xferDone = true ∧ s.xferFails x = true ∧ s.xferEdge x = s.raiseBusFault) ∨
    (x.xferDone = true ∧ s.xferFails x = false ∧ s.si.toNat < s.flen s.fk - 1 ∧
      s.xferEdge x = (s.capture s.fk s.si.toNat x.xferRx).nextSlot) ∨
    (x.xferDone = true ∧ s.xferFails x = false ∧ ¬ s.si.toNat < s.flen s.fk - 1 ∧
      s.xferEdge x = ((s.capture s.fk s.si.toNat x.xferRx).frameEffect s.fk).closeFrame) := by
  unfold State.xferEdge
  split_ifs <;> simp_all

/-- What the poll decision can do (R134). -/
theorem State.pollDecision_cases (s : State) :
    (writeInProgress s.sr = false ∧ s.pollDecision = s.toFinish) ∨
    (writeInProgress s.sr = true ∧ s.limit ≤ s.polls ∧ s.pollDecision = s.raise .timeout) ∨
    (writeInProgress s.sr = true ∧ ¬ s.limit ≤ s.polls ∧ s.pollGap = 0 ∧ s.pollDecision = s.openFrame .poll) ∨
    (writeInProgress s.sr = true ∧ ¬ s.limit ≤ s.polls ∧ s.pollGap ≠ 0 ∧ s.pollDecision = s.startPollGap) := by
  unfold State.pollDecision
  split_ifs <;> simp_all

/-- What the end of GAP can do (R130). -/
theorem State.afterGap_cases (s : State) :
    (s.abort = true ∧ s.afterGap = s.toFinish) ∨
    (s.abort = false ∧ s.fk = .wren ∧ s.curOpc = opcWrite ∧ s.afterGap = s.openFrame .write) ∨
    (s.abort = false ∧ s.fk = .write ∧ s.policy = .fixedDelay ∧ s.wdelay = 0 ∧ s.afterGap = s.toFinish) ∨
    (s.abort = false ∧ s.fk = .write ∧ s.policy = .fixedDelay ∧ s.wdelay ≠ 0 ∧ s.afterGap = s.startDelay) ∨
    (s.abort = false ∧ s.fk = .write ∧ s.policy = .pollStatus ∧ s.afterGap = s.openFrame .poll) ∨
    (s.abort = false ∧ s.fk = .poll ∧ s.afterGap = s.pollDecision) ∨
    (s.abort = false ∧ ¬ (s.fk = .wren ∧ s.curOpc = opcWrite) ∧ s.fk ≠ .write ∧ s.fk ≠ .poll ∧ s.afterGap = s.toFinish) := by
  unfold State.afterGap State.startWait
  cases hp : s.policy <;> split_ifs <;> simp_all

/-- `t` has the command, the configuration, DROP, the build and the environment's fields of `s`. -/
def State.SameConfig (s t : State) : Prop :=
  t.lastCmd = s.lastCmd ∧ t.drop = s.drop ∧ t.policy = s.policy ∧ t.wdelay = s.wdelay ∧ t.limit = s.limit ∧
    t.pollGap = s.pollGap ∧ t.build = s.build ∧ t.pending = s.pending ∧ t.log = s.log

theorem State.SameConfig.refl (s : State) : s.SameConfig s := ⟨rfl, rfl, rfl, rfl, rfl, rfl, rfl, rfl, rfl⟩

theorem State.SameConfig.trans {s t u : State} (h : s.SameConfig t) (h' : t.SameConfig u) : s.SameConfig u := by
  obtain ⟨a1, a2, a3, a4, a5, a6, a7, a8, a9⟩ := h
  obtain ⟨b1, b2, b3, b4, b5, b6, b7, b8, b9⟩ := h'
  exact ⟨b1.trans a1, b2.trans a2, b3.trans a3, b4.trans a4, b5.trans a5, b6.trans a6, b7.trans a7, b8.trans a8, b9.trans a9⟩

theorem State.sameConfig_capture (s : State) (fk : FrameKind) (k : Nat) (rx : Byte) : s.SameConfig (s.capture fk k rx) := by
  rcases s.capture_cases fk k rx with ⟨_, _, _, h⟩ | ⟨_, _, h⟩ | h <;> rw [h] <;> exact State.SameConfig.refl s

theorem State.sameConfig_frameEffect (s : State) (fk : FrameKind) : s.SameConfig (s.frameEffect fk) := by
  rcases s.frameEffect_cases fk with ⟨_, h⟩ | ⟨_, h⟩ | ⟨_, _, h⟩ <;> rw [h] <;> exact State.SameConfig.refl s

theorem State.sameConfig_xferEdge (s : State) (x : CycleIn) : s.SameConfig (s.xferEdge x) := by
  rcases s.xferEdge_cases x with ⟨_, h⟩ | ⟨_, _, h⟩ | ⟨_, _, _, h⟩ | ⟨_, _, _, h⟩ <;> rw [h]
  · exact State.SameConfig.refl s
  · exact State.SameConfig.refl s
  · exact s.sameConfig_capture s.fk s.si.toNat x.xferRx
  · exact (s.sameConfig_capture s.fk s.si.toNat x.xferRx).trans (State.sameConfig_frameEffect _ s.fk)

theorem State.sameConfig_pollDecision (s : State) : s.SameConfig s.pollDecision := by
  rcases s.pollDecision_cases with ⟨_, h⟩ | ⟨_, _, h⟩ | ⟨_, _, _, h⟩ | ⟨_, _, _, h⟩ <;> rw [h] <;> exact State.SameConfig.refl s

theorem State.sameConfig_afterGap (s : State) : s.SameConfig s.afterGap := by
  rcases s.afterGap_cases with ⟨_, h⟩ | ⟨_, _, _, h⟩ | ⟨_, _, _, _, h⟩ | ⟨_, _, _, _, h⟩ | ⟨_, _, _, h⟩ | ⟨_, _, h⟩ |
    ⟨_, _, _, _, h⟩ <;> rw [h] <;> first | exact s.sameConfig_pollDecision | exact State.SameConfig.refl s

/-- The FSM's transitions leave the command, DROP, the configuration, the build and the environment's fields alone. -/
theorem State.sameConfig_fsmEdge (s : State) (x : CycleIn) : s.SameConfig (s.fsmEdge x) := by
  unfold State.fsmEdge
  cases s.st with
  | idle => exact State.SameConfig.refl s
  | check => rcases s.checkEdge_cases with ⟨_, h⟩ | ⟨_, h⟩ <;> simp only [h] <;> exact State.SameConfig.refl s
  | assert => exact State.SameConfig.refl s
  | xfer => exact s.sameConfig_xferEdge x
  | gap => simp only [State.gapEdge]; split <;> first | exact s.sameConfig_afterGap | exact State.SameConfig.refl s
  | delay => simp only [State.delayEdge]; split <;> exact State.SameConfig.refl s
  | pgap => simp only [State.pgapEdge]; split <;> exact State.SameConfig.refl s
  | finish => exact State.SameConfig.refl s

/-! ### One cycle -/

/-- A reset cycle (R230). -/
theorem State.edge_of_rst {s : State} {x : CycleIn} (h : x.rst = true) : s.edge x = s.resetEdge := by
  simp [State.edge, h]

/-- A cycle of an idle block (R121, R33). -/
theorem State.edge_of_idle {s : State} {x : CycleIn} (hr : x.rst = false) (h : s.st = .idle) :
    s.edge x = s.hostEffect x.host := by
  simp [State.edge, hr, h]

/-- A cycle of a busy block (R120): the host's effect and the FSM transition. -/
theorem State.edge_of_busy {s : State} {x : CycleIn} (hr : x.rst = false) (h : s.st ≠ .idle) :
    s.edge x = (s.hostEffect x.host).fsmEdge x := by
  simp [State.edge, hr, h]

theorem CycleIn.calm_iff (x : CycleIn) : x.calm = true ↔ x.rst = false ∧ x.host = .nothing := by
  simp [CycleIn.calm]

/-- A calm cycle of a busy block: the FSM transition alone. -/
theorem State.edge_of_calm {s : State} {x : CycleIn} (hx : x.calm = true) (h : s.st ≠ .idle) : s.edge x = s.fsmEdge x := by
  obtain ⟨hr, hh⟩ := x.calm_iff.mp hx
  rw [State.edge_of_busy hr h, hh, State.hostEffect_nothing]

/-- No edge changes the build, the pending inputs or the log. -/
theorem State.edge_frame (s : State) (x : CycleIn) :
    (s.edge x).build = s.build ∧ (s.edge x).pending = s.pending ∧ (s.edge x).log = s.log := by
  cases hr : x.rst with
  | true => simp [State.edge_of_rst hr]
  | false =>
    by_cases h : s.st = .idle
    · rw [State.edge_of_idle hr h]
      rcases State.hostEffect_of_idle h x.host with e | ⟨_, _, e⟩ | ⟨_, e⟩ | ⟨_, e⟩ | ⟨_, e⟩ | ⟨_, _, e⟩ <;> rw [e] <;>
        exact ⟨rfl, rfl, rfl⟩
    · rw [State.edge_of_busy hr h]
      obtain ⟨_, _, _, _, _, _, h1, h2, h3⟩ := (s.hostEffect x.host).sameConfig_fsmEdge x
      rw [h1, h2, h3]
      rcases State.hostEffect_of_busy h x.host with e | e <;> rw [e] <;> exact ⟨rfl, rfl, rfl⟩

@[simp] theorem State.edge_build (s : State) (x : CycleIn) : (s.edge x).build = s.build := (s.edge_frame x).1
@[simp] theorem State.edge_pending (s : State) (x : CycleIn) : (s.edge x).pending = s.pending := (s.edge_frame x).2.1
@[simp] theorem State.edge_log (s : State) (x : CycleIn) : (s.edge x).log = s.log := (s.edge_frame x).2.2

/-- A cycle without reset of a busy block changes neither the command nor the configuration (R33, R80). -/
theorem State.edge_config_of_busy {s : State} {x : CycleIn} (hr : x.rst = false) (h : s.st ≠ .idle) :
    (s.edge x).lastCmd = s.lastCmd ∧ (s.edge x).policy = s.policy ∧ (s.edge x).wdelay = s.wdelay ∧
    (s.edge x).limit = s.limit ∧ (s.edge x).pollGap = s.pollGap := by
  rw [State.edge_of_busy hr h]
  obtain ⟨h1, _, h3, h4, h5, h6, _, _, _⟩ := (s.hostEffect x.host).sameConfig_fsmEdge x
  rw [h1, h3, h4, h5, h6]
  rcases State.hostEffect_of_busy h x.host with e | e <;> rw [e] <;> exact ⟨rfl, rfl, rfl, rfl, rfl⟩

/-- Every cycle keeps the canonical form of BUF and STAGE. -/
theorem State.wf_edge {s : State} (hb : s.buf.wf) (hs : s.stage.wf) (x : CycleIn) :
    (s.edge x).buf.wf ∧ (s.edge x).stage.wf := by
  have key : ∀ t : State, t.buf.wf → t.stage.wf → (t.fsmEdge x).buf.wf ∧ (t.fsmEdge x).stage.wf := by
    intro t hb hs
    have same : ∀ u : State, u.buf = t.buf → u.stage = t.stage → u.buf.wf ∧ u.stage.wf :=
      fun u h1 h2 => ⟨h1 ▸ hb, h2 ▸ hs⟩
    have cap : ∀ k rx, (t.capture t.fk k rx).buf.wf ∧ (t.capture t.fk k rx).stage.wf := by
      intro k rx
      rcases t.capture_cases t.fk k rx with ⟨_, _, _, h⟩ | ⟨_, _, h⟩ | h <;> rw [h]
      · exact ⟨hb, State.wf_setStage hs _ _⟩
      · exact ⟨hb, hs⟩
      · exact ⟨hb, hs⟩
    unfold State.fsmEdge
    cases t.st with
    | idle => exact ⟨hb, hs⟩
    | check => rcases t.checkEdge_cases with ⟨_, h⟩ | ⟨_, h⟩ <;> exact same _ (by rw [h]; rfl) (by rw [h]; rfl)
    | assert => exact ⟨hb, hs⟩
    | xfer =>
      rcases t.xferEdge_cases x with ⟨_, h⟩ | ⟨_, _, h⟩ | ⟨_, _, _, h⟩ | ⟨_, _, _, h⟩ <;> simp only [h]
      · exact ⟨hb, hs⟩
      · exact ⟨hb, hs⟩
      · exact cap _ _
      · rcases State.frameEffect_cases (t.capture t.fk t.si.toNat x.xferRx) t.fk with ⟨_, hf⟩ | ⟨_, hf⟩ | ⟨_, _, hf⟩ <;>
          simp only [hf]
        · exact ⟨State.wf_commitStage (cap _ _).1 _, (cap _ _).2⟩
        · exact cap _ _
        · exact cap _ _
    | gap =>
      simp only [State.gapEdge]
      split
      · exact ⟨hb, hs⟩
      · rcases t.afterGap_cases with ⟨_, h⟩ | ⟨_, _, _, h⟩ | ⟨_, _, _, _, h⟩ | ⟨_, _, _, _, h⟩ | ⟨_, _, _, h⟩ | ⟨_, _, h⟩ |
          ⟨_, _, _, _, h⟩ <;> rw [h] <;> try exact ⟨hb, hs⟩
        rcases t.pollDecision_cases with ⟨_, h⟩ | ⟨_, _, h⟩ | ⟨_, _, _, h⟩ | ⟨_, _, _, h⟩ <;> rw [h] <;> exact ⟨hb, hs⟩
    | delay => simp only [State.delayEdge]; split <;> exact ⟨hb, hs⟩
    | pgap => simp only [State.pgapEdge]; split <;> exact ⟨hb, hs⟩
    | finish => exact ⟨hb, hs⟩
  cases hr : x.rst with
  | true => rw [State.edge_of_rst hr]; exact ⟨hb, hs⟩
  | false =>
    by_cases h : s.st = .idle
    · rw [State.edge_of_idle hr h]
      rcases State.hostEffect_of_idle h x.host with e | ⟨_, _, e⟩ | ⟨_, e⟩ | ⟨_, e⟩ | ⟨_, e⟩ | ⟨_, _, e⟩ <;> rw [e] <;>
        first | exact ⟨State.wf_setBufWord hb _ _, hs⟩ | exact ⟨hb, hs⟩
    · rw [State.edge_of_busy hr h]
      rcases State.hostEffect_of_busy h x.host with e | e <;> rw [e] <;> exact key _ hb hs

/-! ### Runs -/

@[simp] theorem State.runBusy_nil (s : State) : s.runBusy [] = (s, []) := rfl

theorem State.runBusy_of_idle {s : State} (h : s.st = .idle) (xs : List CycleIn) : s.runBusy xs = (s, xs) := by
  cases xs <;> simp [State.runBusy, h]

theorem State.runBusy_cons {s : State} (h : s.st ≠ .idle) (x : CycleIn) (xs : List CycleIn) :
    s.runBusy (x :: xs) = (s.cycle x).runBusy xs := by
  simp [State.runBusy, h]

/-- What holds in a state, and is kept by every cycle of a busy block, holds at the end of a run. -/
theorem State.runBusy_induct {P : State → Prop} (hc : ∀ s x, s.st ≠ .idle → P s → P (s.cycle x)) (s : State)
    (xs : List CycleIn) (h : P s) : P (s.runBusy xs).1 := by
  induction xs generalizing s with
  | nil => exact h
  | cons x xs ih =>
    by_cases hs : s.st = .idle
    · rw [State.runBusy_of_idle hs]; exact h
    · rw [State.runBusy_cons hs]; exact ih _ (hc s x hs h)

/-- The same over cycles of which each meets a condition, such as being without reset. -/
theorem State.runBusy_induct_of {P : State → Prop} {Q : CycleIn → Prop} (hc : ∀ s x, s.st ≠ .idle → Q x → P s → P (s.cycle x))
    (s : State) (xs : List CycleIn) (hq : ∀ x ∈ xs, Q x) (h : P s) : P (s.runBusy xs).1 := by
  induction xs generalizing s with
  | nil => exact h
  | cons x xs ih =>
    by_cases hs : s.st = .idle
    · rw [State.runBusy_of_idle hs]; exact h
    · rw [State.runBusy_cons hs]
      exact ih _ (fun y hy => hq y (by simp [hy])) (hc s x hs (hq x (by simp)) h)

/-- A run that is still busy after some cycles goes on with the others. -/
theorem State.runBusy_append {s : State} {xs : List CycleIn} (ys : List CycleIn) (h : (s.runBusy xs).1.st ≠ .idle) :
    s.runBusy (xs ++ ys) = (s.runBusy xs).1.runBusy ys := by
  induction xs generalizing s with
  | nil => rfl
  | cons x xs ih =>
    by_cases hs : s.st = .idle
    · rw [State.runBusy_of_idle hs] at h; exact absurd hs h
    · rw [List.cons_append, State.runBusy_cons hs, State.runBusy_cons hs]
      rw [State.runBusy_cons hs] at h
      exact ih h

/-- A run keeps the canonical form of BUF and STAGE. -/
theorem State.wf_runBusy {s : State} (hb : s.buf.wf) (hs : s.stage.wf) (xs : List CycleIn) :
    (s.runBusy xs).1.buf.wf ∧ (s.runBusy xs).1.stage.wf :=
  State.runBusy_induct (P := fun s => s.buf.wf ∧ s.stage.wf) (fun _ x _ h => State.wf_edge h.1 h.2 x) s xs ⟨hb, hs⟩

/-! ### Commands and steps -/

/-- An idle block runs the command that is issued to it. -/
theorem State.issue_of_idle {s : State} (h : s.st = .idle) (w : Word) :
    s.issue w =
      ((s.cycle { s.currentInputs with host := hw 0x000 w }).runBusy s.pending.tail).1.withPending
        ((s.cycle { s.currentInputs with host := hw 0x000 w }).runBusy s.pending.tail).2 := by
  simp [State.issue, h]

/-- A busy block goes through one cycle in which the command is dropped. -/
theorem State.issue_of_busy {s : State} (h : s.st ≠ .idle) (w : Word) :
    s.issue w = (s.cycle { s.currentInputs with host := hw 0x000 w }).withPending s.pending.tail := by
  simp [State.issue, h]

/-- The meaning of every command is to issue its word. -/
theorem exec_eq_issue (i : Instr) (s : State) : exec i s = .next (s.issue (encode i)) := by
  cases i <;> rfl

/-- What a step can do: one cycle, or a command word issued. -/
theorem step_cases (s : State) :
    (s.currentInputs.host.commandWord? = none ∧ step s = .next s.advance) ∨
    (∃ w i, s.currentInputs.host.commandWord? = some w ∧ decode w = .ok i ∧ step s = exec i s) ∨
    ∃ w e, s.currentInputs.host.commandWord? = some w ∧ decode w = .error e ∧ step s = .next (s.issue w) := by
  unfold step
  split
  · exact .inl ⟨by assumption, rfl⟩
  · rename_i w hw
    split
    · rename_i i hi; exact .inr (.inl ⟨w, i, hw, hi, rfl⟩)
    · rename_i e he; exact .inr (.inr ⟨w, e, hw, he, rfl⟩)

/-- Every step keeps the canonical form of BUF and STAGE. -/
theorem step_keeps_wf {s t : State} (hb : s.buf.wf) (hs : s.stage.wf) (h : step s = .next t) : t.buf.wf ∧ t.stage.wf := by
  have adv : ∀ x, (s.cycle x).buf.wf ∧ (s.cycle x).stage.wf := fun x => State.wf_edge hb hs x
  have iss : ∀ w, (s.issue w).buf.wf ∧ (s.issue w).stage.wf := by
    intro w
    by_cases hi : s.st = .idle
    · rw [State.issue_of_idle hi]; exact State.wf_runBusy (adv _).1 (adv _).2 _
    · rw [State.issue_of_busy hi]; exact adv _
  rcases step_cases s with ⟨_, e⟩ | ⟨w, i, _, _, e⟩ | ⟨w, _, _, _, e⟩
  · rw [e] at h; cases h; exact adv _
  · rw [e, exec_eq_issue] at h; cases h; exact iss _
  · rw [e] at h; cases h; exact iss _

end Sys2Proof.Machine
end

