-- ==== Sys2Proof/Laws/PerInstr.lean ====
section
/-! SUPPORT. One statement for every command, with one lemma per constructor: what the fields of its word hold. -/

namespace Sys2Proof.Laws

/-- R90, R93: the fields of a command's word are its code and its operands. -/
def EncodedFields.Statement : Instr → Prop
  | .read addr len => opcField (encode (.read addr len)) = 0x03 ∧ addrField (encode (.read addr len)) = addr ∧
      argField (encode (.read addr len)) = BitVec.ofNat 8 len
  | .write addr len => opcField (encode (.write addr len)) = 0x02 ∧ addrField (encode (.write addr len)) = addr ∧
      argField (encode (.write addr len)) = BitVec.ofNat 8 len
  | .wren a b => opcField (encode (.wren a b)) = 0x06 ∧ addrField (encode (.wren a b)) = a ∧ argField (encode (.wren a b)) = b
  | .wrdi a b => opcField (encode (.wrdi a b)) = 0x04 ∧ addrField (encode (.wrdi a b)) = a ∧ argField (encode (.wrdi a b)) = b
  | .rdsr a b => opcField (encode (.rdsr a b)) = 0x05 ∧ addrField (encode (.rdsr a b)) = a ∧ argField (encode (.rdsr a b)) = b
  | .wrsr b a => opcField (encode (.wrsr b a)) = 0x01 ∧ addrField (encode (.wrsr b a)) = a ∧ argField (encode (.wrsr b a)) = b

/-- The fields of a word are what it was made of (R90). -/
theorem fields_commandWord (arg : Byte) (addr : Addr) (opc : Byte) :
    opcField (commandWord arg addr opc) = opc ∧ addrField (commandWord arg addr opc) = addr ∧
      argField (commandWord arg addr opc) = arg := by
  refine ⟨?_, ?_, ?_⟩ <;> ext i hi <;>
    simp only [opcField, addrField, argField, commandWord, BitVec.getElem_extractLsb', BitVec.getLsbD_append] <;>
    split_ifs <;> first | omega | (simp_all [BitVec.getLsbD_eq_getElem]; try (rw [show 24 + i - 8 - 16 = i by omega]; exact BitVec.getLsbD_eq_getElem hi))

theorem EncodedFields.read (addr : Addr) (len : Nat) : EncodedFields.Statement (.read addr len) := fields_commandWord _ _ _
theorem EncodedFields.write (addr : Addr) (len : Nat) : EncodedFields.Statement (.write addr len) := fields_commandWord _ _ _
theorem EncodedFields.wren (a : Addr) (b : Byte) : EncodedFields.Statement (.wren a b) := fields_commandWord _ _ _
theorem EncodedFields.wrdi (a : Addr) (b : Byte) : EncodedFields.Statement (.wrdi a b) := fields_commandWord _ _ _
theorem EncodedFields.rdsr (a : Addr) (b : Byte) : EncodedFields.Statement (.rdsr a b) := fields_commandWord _ _ _
theorem EncodedFields.wrsr (value : Byte) (a : Addr) : EncodedFields.Statement (.wrsr value a) := fields_commandWord _ _ _

end Sys2Proof.Laws
end

