-- ==== Sys2Proof/Laws/Runs.lean ====
section
/-! SUPPORT. Steps one after another, what the log holds of them, and what a device does through the cycles of the wire. -/

namespace Sys2Proof.Machine

/-! ### Steps -/

/-- What every cycle keeps, whatever the pending cycles, a command keeps. -/
theorem State.issue_induct {P : State → Prop} (hc : ∀ s x, P s → P (s.cycle x)) (hp : ∀ s xs, P s → P (s.withPending xs))
    (s : State) (w : Word) (h : P s) : P (s.issue w) := by
  by_cases hi : s.st = .idle
  · rw [State.issue_of_idle hi]
    exact hp _ _ (State.runBusy_induct (fun u x _ => hc u x) _ _ (hc _ _ h))
  · rw [State.issue_of_busy hi]
    exact hp _ _ (hc _ _ h)

/-- What every cycle keeps, whatever the pending cycles, a step keeps. -/
theorem step_induct {P : State → Prop} (hc : ∀ s x, P s → P (s.cycle x)) (hp : ∀ s xs, P s → P (s.withPending xs))
    {s t : State} (h : P s) (hst : step s = .next t) : P t := by
  rcases step_cases s with ⟨_, e⟩ | ⟨w, i, _, _, e⟩ | ⟨w, _, _, _, e⟩
  · rw [e] at hst; cases hst; exact hp _ _ (hc _ _ h)
  · rw [e, exec_eq_issue] at hst; cases hst; exact State.issue_induct hc hp s _ h
  · rw [e] at hst; cases hst; exact State.issue_induct hc hp s w h

/-- What every step keeps holds in every state that is reached. -/
theorem Reaches.induct {P : State → Prop} (hs : ∀ s t, P s → step s = .next t → P t) {s t : State} (h : Reaches s t)
    (h0 : P s) : P t := by
  induction h with
  | refl => exact h0
  | more t u _ ht ih => exact hs t u ih ht

theorem Reaches.trans {s t u : State} (h : Reaches s t) (h' : Reaches t u) : Reaches s u := by
  induction h' with
  | refl => exact h
  | more v w _ hv ih => exact .more v w ih hv

/-- No step changes the build (R9). -/
theorem Reaches.build {s t : State} (h : Reaches s t) : t.build = s.build :=
  h.induct (P := fun u => u.build = s.build)
    (fun _ _ hu huv => step_induct (P := fun u => u.build = s.build) (fun a x ha => (a.edge_frame x).1.trans ha)
      (fun _ _ ha => ha) hu huv) rfl

/-- Every state that is reached keeps the canonical form of BUF and STAGE. -/
theorem Reaches.wf {s t : State} (h : Reaches s t) (hb : s.buf.wf) (hs : s.stage.wf) : t.buf.wf ∧ t.stage.wf :=
  h.induct (P := fun u => u.buf.wf ∧ u.stage.wf) (fun _ _ hu huv => step_keeps_wf hu.1 hu.2 huv) ⟨hb, hs⟩

/-! ### The log -/

/-- The log only grows. -/
theorem State.log_cycle {l : List CycleRecord} {s : State} (x : CycleIn) (h : l <+: s.log) : l <+: (s.cycle x).log :=
  h.trans (List.prefix_append _ _)

theorem State.log_issue (s : State) (w : Word) : s.log <+: (s.issue w).log :=
  State.issue_induct (P := fun u => s.log <+: u.log) (fun _ x h => State.log_cycle x h) (fun _ _ h => h) s w List.prefix_rfl

theorem Reaches.log {s t : State} (h : Reaches s t) : s.log <+: t.log :=
  h.induct (P := fun u => s.log <+: u.log)
    (fun _ _ hu huv => step_induct (P := fun u => s.log <+: u.log) (fun _ x ha => State.log_cycle x ha) (fun _ _ ha => ha) hu huv)
    List.prefix_rfl

/-- The cycles of two stretches, one after the other. -/
theorem elapsed_append {s t u : State} (h : s.log <+: t.log) (h' : t.log <+: u.log) :
    elapsed s u = elapsed s t ++ elapsed t u := by
  obtain ⟨a, ha⟩ := h
  obtain ⟨b, hb⟩ := h'
  simp [elapsed, ← ha, ← hb]

/-- What a device sees of two stretches, one after the other. -/
theorem wireBetween_append {s t u : State} (hb : t.build = s.build) (h : s.log <+: t.log) (h' : t.log <+: u.log) :
    wireBetween s u = wireBetween s t ++ wireBetween t u := by
  simp [wireBetween, elapsed_append h h', hb]

/-! ### The device -/

/-- A device through two stretches of the wire. -/
theorem Device.Run.append_iff {p : DeviceParams} {d f : Device} {as bs : List WireCycle} :
    Device.Run p d (as ++ bs) f ↔ ∃ e, Device.Run p d as e ∧ Device.Run p e bs f := by
  induction as generalizing d with
  | nil =>
    refine ⟨fun h => ⟨d, .nil d, h⟩, ?_⟩
    rintro ⟨e, h, h'⟩
    cases h
    exact h'
  | cons a as ih =>
    constructor
    · intro h
      cases h with
      | cons _ e _ _ _ hc hr =>
        obtain ⟨g, h1, h2⟩ := ih.mp hr
        exact ⟨g, .cons _ _ _ _ _ hc h1, h2⟩
    · rintro ⟨g, h1, h2⟩
      cases h1 with
      | cons _ e _ _ _ hc hr => exact .cons _ _ _ _ _ hc (ih.mpr ⟨g, hr, h2⟩)

/-- R76: time changes nothing of a device but its write in progress. -/
theorem Device.Passes.frame {p : DeviceParams} {d e : Device} (h : Device.Passes p d e) :
    e.latch = d.latch ∧ e.array = d.array ∧ e.window = d.window := by
  cases h <;> exact ⟨rfl, rfl, rfl⟩

/-- A device that is not in a write cycle stays so. -/
theorem Device.Passes.of_not_busy {p : DeviceParams} {d e : Device} (h : Device.Passes p d e) (hb : d.busy = false) : e = d := by
  cases h <;> simp_all [Device.busy]

/-- R76: a write in progress has taken one cycle more, and less than the write time, or it has completed. -/
theorem Device.Passes.of_writing {p : DeviceParams} {d e : Device} {k : Nat} (h : Device.Passes p d e)
    (hk : d.writing = some k) :
    e.writing = none ∨ (e.writing = some (k + 1) ∧ ∀ n, p.writeTime = some n → k + 1 < n) := by
  cases h <;> simp_all

/-- R79: a stretch of addresses in range stays so when it is cut short. -/
theorem DeviceParams.inRange_mono {p : DeviceParams} {a m n : Nat} (h : p.inRange a n) (hm : m ≤ n) : p.inRange a m :=
  ⟨Nat.le_trans (Nat.add_le_add_left hm a) h.1, fun i hi => h.2 i (Nat.lt_of_lt_of_le hi hm)⟩

/-- R165: a harmless frame that meets no write cycle leaves the array and the write cycle alone. -/
theorem Device.Acts.of_harmless {p : DeviceParams} {d e : Device} {w : Window} (h : Device.Acts p d w e)
    (hf : w.exchanges.harmless p) (hb : w.busySeen = false) (hc : w.cut = false) :
    e.array = d.array ∧ e.writing = d.writing ∧ e.window = d.window := by
  obtain ⟨hu, hs⟩ := hf
  cases h with
  | wren => exact ⟨rfl, rfl, rfl⟩
  | writeIgnored => exact ⟨rfl, rfl, rfl⟩
  | read => exact ⟨rfl, rfl, rfl⟩
  | status => exact ⟨rfl, rfl, rfl⟩
  | wrdi => exact ⟨rfl, rfl, rfl⟩
  | writeStarts ah al data l _ _ h' =>
    rcases hs with h | h | ⟨_, h⟩ | ⟨_, _, _, h, _⟩ <;> rw [h] at h' <;> simp [opcWren, opcWrite, opcRead, opcWrdi, opcRdsr] at h'
  | writeOpen _ rest h' =>
    rcases hs with h | h | ⟨_, h⟩ | ⟨_, _, _, h, _⟩ <;> rw [h] at h' <;> simp [opcWren, opcWrite, opcRead, opcWrdi, opcRdsr] at h'
  | wrsr l k rest _ _ h' =>
    rcases hs with h | h | ⟨_, h⟩ | ⟨_, _, _, h, _⟩ <;> rw [h] at h' <;> simp [opcWren, opcWrsr, opcRead, opcWrdi, opcRdsr] at h'
  | readOpen _ rest h' _ hr =>
    rcases hs with h | h | ⟨_, h⟩ | ⟨_, _, _, h, hi⟩ <;> rw [h] at h'
    iterate 3 simp [opcWren, opcRead, opcWrdi, opcRdsr] at h'
    exact absurd hi (hr _ _ _ (List.cons.inj h').2.symm)
  | busyOpen _ h' => rw [hb] at h'; cases h'
  | partialOpen _ h' => exact absurd ⟨hc, hu⟩ h'
  | otherOpen _ h' =>
    rcases hs with h | h | ⟨_, h⟩ | ⟨_, _, _, h, _⟩ <;>
      simp [h, opcWren, opcWrsr, opcWrite, opcRead, opcWrdi, opcRdsr] at h'

/-- A low cycle changes nothing of a device that is not in a write cycle but its window. -/
theorem Device.Cycle.low_of_not_busy {p : DeviceParams} {d e : Device} {x : Option Exchange} {cut : Bool}
    (h : Device.Cycle p d (.low x cut) e) (hb : d.busy = false) :
    e = d.extend false x cut ∧ ∀ y, x = some y → d.mayBring p false y := by
  cases h with
  | low _ _ _ hp hx =>
    obtain rfl := hp.of_not_busy hb
    simpa [hb] using hx

/-- A high cycle of a device that has no window open and is not in a write cycle changes nothing. -/
theorem Device.Cycle.high_of_not_busy {p : DeviceParams} {d e : Device} (h : Device.Cycle p d .high e) (hw : d.window = none)
    (hb : d.busy = false) : e = d := by
  cases h with
  | high _ _ hp => exact hp.of_not_busy hb
  | rises _ _ w hw' => rw [hw] at hw'; cases hw'

end Sys2Proof.Machine
end

