-- ==== Sys2Proof/Tests/Slice0.lean ====
section
/-! SUPPORT. Small tests whose expected results are those of spec/95_test_vectors.md, and for every obligation with hypotheses a
concrete case that meets them (`witness_<obligation>`). -/

open Sys2Proof Sys2Proof.Machine

namespace Sys2Proof.Tests

/-! ### Helpers -/

/-- A cycle in which nothing arrives. -/
abbrev q : CycleIn := CycleIn.quiet

/-- A cycle in which the transport brings a byte. -/
def brings (b : Byte) : CycleIn := { q with xferDone := true, xferRx := b }

/-- A cycle in which the exchange fails. -/
def fails : CycleIn := { q with xferDone := true, xferErr := true }

/-- A cycle in which the host makes an access. -/
def accesses (a : HostAccess) : CycleIn := { q with host := a }

/-- The cycles of a whole frame that brings some bytes, in the reference build. -/
def wholeFrame (rx : List Byte) : List CycleIn := q :: (rx.map brings ++ [q])

/-- The cycles of a frame that breaks off after some bytes, in the reference build. -/
def brokenFrame (rx : List Byte) : List CycleIn := q :: (rx.map brings ++ [] ++ fails :: [q])

/-- The reference machine with BUF word 0 and the inputs to come. -/
def withBuf (word : Word) (xs : List CycleIn) : State := (State.reset.setBufWord 0 word).withPending xs

/-- The state that an outcome holds. -/
def after (o : Host.Outcome State Fault Refusal) : State :=
  match o with
  | .next t => t
  | .fault _ => State.reset
  | .refused _ => State.reset

theorem serves_map (rx : List Byte) : serves rx (rx.map brings) = true := by
  induction rx with
  | nil => rfl
  | cons b bs ih => simp [serves, CycleIn.calm, brings, q, CycleIn.quiet, ih]

theorem calmCycles_replicate (n : Nat) : calmCycles n (List.replicate n q) := by
  refine ⟨by simp, fun x hx => ?_⟩
  rw [List.eq_of_mem_replicate hx]
  rfl

theorem wholeFrame_cycles (rx : List Byte) : frameCycles 1 rx (wholeFrame rx) :=
  ⟨q, rx.map brings, [q], rfl, rfl, serves_map rx, calmCycles_replicate 1⟩

theorem brokenFrame_cycles (rx : List Byte) : brokenFrameCycles 1 rx (brokenFrame rx) :=
  ⟨q, rx.map brings, [], fails, [q], rfl, rfl, serves_map rx, by simp, rfl, rfl, rfl, calmCycles_replicate 1⟩

/-! ### WellFormed: R92, R99 -/

theorem test_read_len_256_refused : ¬ (Instr.read 0 256).WellFormed := by decide
theorem test_write_len_256_refused : ¬ (Instr.write 0xFFFF 256).WellFormed := by decide

/-! ### Decoding: 95_test_vectors.md 2.1; the words are written out from the fields of R90 -/

theorem test_decode_read : decode 0b00000001000100100011010000000011 = .ok (.read 0x1234 1) := by decide
theorem test_decode_write : decode 0b00010001000000000000000000000010 = .ok (.write 0x0000 17) := by decide
theorem test_decode_wren : decode 0b00000000000000000000000000000110 = .ok (.wren 0 0) := by decide
theorem test_decode_wrdi : decode 0b00000000101010111100110100000100 = .ok (.wrdi 0xABCD 0x00) := by decide
theorem test_decode_rdsr : decode 0b00010010001101000101011000000101 = .ok (.rdsr 0x3456 0x12) := by decide
theorem test_decode_wrsr : decode 0b10001100000000000000000000000001 = .ok (.wrsr 0x8C 0) := by decide
theorem test_decode_reserved_00 : decode 0x00000000 = .error (.reservedOpcode 0x00) := by decide
theorem test_decode_reserved_13 : decode 0x0A00FF13 = .error (.reservedOpcode 0x13) := by decide
theorem test_encode_read : encode (.read 0x00FF 10) = 0x0A00FF03 := by decide
theorem test_encode_write : encode (.write 0xFFFF 16) = 0x10FFFF02 := by decide

/-! ### Assembler: R99 -/

theorem test_assemble_hex :
    assemble ['w', 'r', 'i', 't', 'e'] [['0', 'x', '0', '0', 'F', 'f'], ['1', '0']] = .ok 0x0A00FF02 := by decide
theorem test_assemble_out_of_range : assemble ['W', 'R', 'S', 'R'] [['2', '5', '6']] = .error .outOfRange := by decide

/-! ### One command each: the rows of 95_test_vectors.md named in the comments -/

-- RD1
theorem test_read : (let t := after (exec (.read 0x0012 4)
      (withBuf 0 (q :: q :: wholeFrame [0, 0, 0, 0xDE, 0xAD, 0xBE, 0xEF] ++ [q])))
    (t.statWord, t.bufWord 0)) = (0x00000042, 0xEFBEADDE) := by decide +kernel
-- RD4
theorem test_read_fault : (let t := after (exec (.read 0x0012 4)
      (withBuf 0x11111111 (q :: q :: brokenFrame [0, 0, 0, 0xDE, 0xAD, 0xBE] ++ [q])))
    (t.statWord, t.bufWord 0)) = (0x0000004E, 0x11111111) := by decide +kernel
-- WR2, with the wire of X2
theorem test_write_fixed : (let s := (withBuf 0x5A (q :: q :: wholeFrame [0] ++ wholeFrame [0, 0, 0, 0] ++ [q, q, q]))
    let s := (s.setCfg 0).setWdelay 2
    let t := after (exec (.write 0x0010 1) s)
    (t.statWord, (framesBetween s t).map Frame.sent, (elapsed s t).length)) =
      (0x00000042, [[0x06], [0x02, 0x00, 0x10, 0x5A]], 14) := by decide +kernel
-- WR7, X4
theorem test_write_timeout : (let s := (withBuf 0x5A (q :: q :: wholeFrame [0] ++ wholeFrame [0, 0, 0, 0] ++
      wholeFrame [0, 1] ++ [q] ++ wholeFrame [0, 1] ++ [q])).setPollcfg 0x00010002
    let t := after (exec (.write 0x0010 1) s)
    (t.statWord, t.polls, (framesBetween s t).length, (elapsed s t).length)) = (0x0001014A, 2, 4, 21) := by decide +kernel
-- X3, CS1
theorem test_wren : (let s := withBuf 0 [q, q, q, q, brings 0xFF, q, q]
    let t := after (exec (.wren 0 0) s)
    (t.statWord, (framesBetween s t).map Frame.sent, t.pending)) = (0x00000042, [[0x06]], []) := by decide +kernel
-- CS9
theorem test_wren_fault : (after (exec (.wren 0 0) (withBuf 0 (q :: q :: brokenFrame [] ++ [q])))).statWord = 0x0000004E := by
  decide +kernel
-- CS2
theorem test_wrdi : (let s := withBuf 0 (q :: q :: wholeFrame [0xFF] ++ [q])
    let t := after (exec (.wrdi 0xABCD 0) s)
    (t.statWord, (framesBetween s t).map Frame.sent)) = (0x00000042, [[0x04]]) := by decide +kernel
-- CS3, X1
theorem test_rdsr : (let s := withBuf 0 (q :: q :: wholeFrame [0xFF, 0x03] ++ [q])
    let t := after (exec (.rdsr 0 0) s)
    (t.statWord, (framesBetween s t).map Frame.sent)) = (0x00010342, [[0x05, 0x00]]) := by decide +kernel
-- CS6
theorem test_rdsr_fault : (after (exec (.rdsr 0 0)
    ((withBuf 0 (q :: q :: brokenFrame [0] ++ [q])).setSr 0x03))).statWord = 0x0001034E := by decide +kernel
-- CS7
theorem test_wrsr : (let s := withBuf 0 (q :: q :: wholeFrame [0xFF, 0xFF] ++ [q])
    let t := after (exec (.wrsr 0x8C 0) s)
    (t.statWord, (framesBetween s t).map Frame.sent)) = (0x00000042, [[0x01, 0x8C]]) := by decide +kernel
-- 2.2, the row 0x00000008
theorem test_reserved_word : (let s := withBuf 0 [accesses (hw 0x000 0x00000008), q, q]
    let t := after (step s)
    (t.statWord, t.lastCmd, (elapsed s t).length)) = (0x00000046, 0x00000008, 3) := by decide +kernel

/-! ### The host port: 95_test_vectors.md 2.7 -/

-- H1, H5, H7
theorem test_reset_stat : State.reset.respond (hr 0x004) = some (.data 0x00000040) := by decide
theorem test_pollcfg_zero_limit :
    (State.reset.hostEffect (hw 0x010 0xFFFF0000)).respond (hr 0x010) = some (.data 0xFFFF0001) := by decide
-- H12, H13, H14, H16
theorem test_access_errors : [HostAccess.read 0x002 4, .read 0x004 2, .read 0x018 4, .read 0x110 4].map State.reset.respond =
    List.replicate 4 (some .accessError) := by decide
-- H18
theorem test_partial_word : (let s := State.initial { Build.reference with bufBytes := 10 }
    (s.hostEffect (hw 0x108 0xDDCCBBAA)).respond (hr 0x108)) = some (.data 0x0000BBAA) := by decide +kernel

/-! ### Witnesses: the command word -/

theorem witness_DecodeOfEncodeIsTheCommand : (Instr.read 0xFFFF 0xFF).WellFormed ∧ (Instr.write 0x0000 0).WellFormed := by
  decide
theorem witness_EncodeOfDecodeIsTheWord : decode 0xFFFFFF03 = .ok (.read 0xFFFF 255) := by decide
theorem witness_OpcodeFieldSelectsTheCommand :
    [0x0A00FF03, 0x10FFFF02, 0xFFFFFF06, 0x00ABCD04, 0x12345605, 0x7F00AA01].map (fun w : Word => w.extractLsb' 0 8) =
      [0x03, 0x02, 0x06, 0x04, 0x05, 0x01] ∧
    (BitVec.extractLsb' 0 8 (0xFFFFFF00 : Word) = 0x00) ∧ (0x07 : Byte) ≤ BitVec.extractLsb' 0 8 (0xFFFFFF07 : Word) ∧
    (0x07 : Byte) ≤ BitVec.extractLsb' 0 8 (0x0A00FFFF : Word) := by decide
theorem witness_AssemblerRangesAndWords :
    numberValue ['0', 'x', '1', '0', '0', '0', '0'] = some 0x10000 ∧ numberValue ['6', '5', '5', '3', '5'] = some 0xFFFF ∧
    numberValue ['0', 'x', 'F', 'f'] = some 0xFF ∧ numberValue ['2', '5', '6'] = some 0x100 ∧
    numberValue ['0'] = some 0 ∧ ['r', 'E', 'a', 'd'].map Char.toUpper = ['R', 'E', 'A', 'D'] ∧
    ['W', 'r', 'i', 't', 'e'].map Char.toUpper = ['W', 'R', 'I', 'T', 'E'] ∧
    ['w', 'r', 's', 'r'].map Char.toUpper = ['W', 'R', 'S', 'R'] ∧ ['w', 'r', 'e', 'n'].map Char.toUpper = ['W', 'R', 'E', 'N'] ∧
    ['W', 'R', 'D', 'I'].map Char.toUpper = ['W', 'R', 'D', 'I'] ∧
    ['R', 'd', 'S', 'r'].map Char.toUpper = ['R', 'D', 'S', 'R'] := by decide

/-! ### Witnesses: the step -/

/-- A block in XFER, in the third data slot of `READ 0x0012, 4` (trace X5). -/
def inXfer : State :=
  { withBuf 0x11111111 [] with st := .xfer, lastCmd := 0x04001203, fk := .read, si := 5, stage := [(0, 0xDE), (1, 0xAD)] }

theorem witness_StepRunsTheDecodedCommand :
    (inXfer.withPending [accesses (.write 0x000 4 0x00000006)]).pending = [accesses (.write 0x000 4 0x00000006)] ∧
    (accesses (.write 0x000 4 0x00000006)).host = .write 0x000 4 0x00000006 ∧
    decode 0x00000006 = .ok (.wren 0 0) ∧ decodeTableWord 32 0x0A00FF03 = some (.read 0x00FF 10) := by decide
/-- One pending cycle; a busy block; a reset; no write of CMD; no pending cycle. -/
theorem witness_StepIsOneClockEdge :
    ((withBuf 0 [q]).pending = [q] ∧ (withBuf 0 [q]).st = .idle) ∧
    ((inXfer.withPending [brings 0, q]).pending = [brings 0, q] ∧ (inXfer.withPending [brings 0, q]).st ≠ .idle) ∧
    ((withBuf 0 [{ accesses (hw 0x000 6) with rst := true }, q]).pending = [{ accesses (hw 0x000 6) with rst := true }, q] ∧
      ({ accesses (hw 0x000 6) with rst := true } : CycleIn).rst = true) ∧
    ((withBuf 0 [accesses (hw 0x00C 6), q]).pending = [accesses (hw 0x00C 6), q] ∧
      ∀ w, (accesses (hw 0x00C 6)).host ≠ .write 0x000 4 w) ∧
    (withBuf 0 []).pending = [] := by
  refine ⟨by decide, by decide, by decide, ⟨rfl, fun w h => ?_⟩, rfl⟩
  cases h

theorem inXfer_inv : Inv inXfer where
  legal := by decide
  bufWf := by decide
  bufBelow := by unfold Memory.Below; decide
  stageWf := by decide
  stageBelow := by unfold Memory.Below; decide
  limitPos := by decide
  busyResult := by decide
  frameValid := fun _ => ⟨by decide, .inl ⟨by decide, rfl⟩⟩
  slot := by decide
  noAbort := by decide
  gapAbort := by decide
  pollsBound := by decide
  pollsBelow := by decide
  gapCount := by decide
  delayCount := by decide
  pgapCount := by decide

theorem witness_StepKeepsTheInvariant : Inv inXfer ∧ ∃ t, step inXfer = .next t := ⟨inXfer_inv, _, rfl⟩

theorem witness_ResetCycleGivesResetValues :
    (inXfer.withPending [{ brings 0xFF with rst := true, xferErr := true }]).pending =
      [{ brings 0xFF with rst := true, xferErr := true }] ∧
    ({ brings 0xFF with rst := true, xferErr := true } : CycleIn).rst = true := by decide

/-! ### Witnesses: the host port -/

/-- The machine of the build with BUF_BYTES = 10 (H18, H19): three BUF words, the last of which has two bytes. -/
def tenBytes : State := State.initial { Build.reference with bufBytes := 10 }

/-- H12 to H16 and the ends of each unmapped range, in the reference build; 0x108 and 0x10C where BUF_BYTES is 10. -/
theorem witness_AccessErrorChangesNothing :
    [HostAccess.read 0x000 2, .write 0x002 4 1, .read 0x018 4, .write 0x0FC 4 1, .read 0x110 4, .read 0x1FC 4].map
      State.reset.respond = List.replicate 6 (some .accessError) ∧
    [HostAccess.read 0x000 4, .read 0x014 4, .read 0x100 4, .write 0x10C 4 1].map
      (fun a => decide (State.reset.respond a = some .accessError)) = List.replicate 4 false ∧
    tenBytes.respond (.read 0x10C 4) = some .accessError ∧ tenBytes.respond (.read 0x108 4) ≠ some .accessError := by
  decide +kernel
theorem witness_HostReadHasNoSideEffect :
    (accesses (.read 0x10C 4)).host = .read 0x10C 4 ∧ (accesses (.read 0x10C 4)).rst = false ∧ hostTarget State.reset.build 0x10C 4 = some (.bufWord 3) ∧
    hostTarget State.reset.build 0x000 4 = some .cmd := by decide
theorem witness_RegisterMapReads : 0 < (State.reset.build.bufBytes + 3) / 4 ∧ 3 < (State.reset.build.bufBytes + 3) / 4 ∧
    2 < (tenBytes.build.bufBytes + 3) / 4 ∧ 4 * 2 + 1 < tenBytes.build.bufBytes ∧ ¬ 4 * 2 + 2 < tenBytes.build.bufBytes := by
  decide
theorem witness_IdleConfigurationWrites : State.reset.st = .idle ∧
    [accesses (.write 0x008 4 0xFFFFFFFE), accesses (.write 0x008 4 1), accesses (.write 0x00C 4 0xFFFFFFFF),
      accesses (.write 0x010 4 0xFFFF0000), accesses (.write 0x010 4 0x00040008)].map (fun x => (x.rst, x.host)) =
    [(false, .write 0x008 4 0xFFFFFFFE), (false, .write 0x008 4 1), (false, .write 0x00C 4 0xFFFFFFFF),
      (false, .write 0x010 4 0xFFFF0000), (false, .write 0x010 4 0x00040008)] := by decide
theorem witness_IdleBufWrite : tenBytes.st = .idle ∧ q.rst = false ∧ tenBytes.buf.wf ∧
    (accesses (.write 0x108 4 0xDDCCBBAA)).host = .write (BitVec.ofNat 9 (0x100 + 4 * 2)) 4 0xDDCCBBAA ∧
    2 < (tenBytes.build.bufBytes + 3) / 4 ∧ (9 / 4 = 2 ∧ 9 < tenBytes.build.bufBytes) ∧
    ¬ (10 / 4 = 2 ∧ 10 < tenBytes.build.bufBytes) := by decide
theorem witness_HostWritePerformedOrDropped :
    (accesses (.write 0x008 4 0)).rst = false ∧ (accesses (.write 0x008 4 0)).host = .write 0x008 4 0 ∧
    hostReg State.reset.build 0x008 = some .cfg ∧ State.reset.st = .idle ∧
    hostReg inXfer.build 0x008 = some .cfg ∧ inXfer.st ≠ .idle ∧
    (accesses (.write 0x004 4 0xFFFFFFFF)).host = .write 0x004 4 0xFFFFFFFF ∧ hostReg inXfer.build 0x004 = some .stat ∧
    (accesses (.write 0x014 4 5)).host = .write 0x014 4 5 ∧ hostReg inXfer.build 0x014 = some .pollcnt := by decide

/-! ### Witnesses: the transitions -/

/-- A block in some state of the FSM, with a command word. -/
def inState (st : SeqState) (fk : FrameKind) (w : Word) : State := { withBuf 0x5A [] with st := st, fk := fk, lastCmd := w }

theorem witness_AcceptanceIsTheWayOutOfIdle : State.reset.st = .idle ∧ (accesses (.write 0x000 4 0x0A00FF03)).rst = false ∧
    (accesses (.write 0x000 4 0x0A00FF03)).host = .write 0x000 4 0x0A00FF03 ∧ q.rst = false ∧ q.host = .nothing ∧
    ∀ w, (accesses (.read 0x000 4)).host ≠ .write 0x000 4 w := by
  refine ⟨rfl, rfl, rfl, rfl, rfl, fun w h => ?_⟩
  cases h

/-- Every clause, with LEN at 0, 1, BUF_BYTES and BUF_BYTES + 1, and the reserved codes 0x00 and 0x07. -/
theorem witness_CheckValidatesTheCommand : q.calm ∧ (inState .check .wren 0x10000003).st = .check ∧
    [0x01000003, 0x10000003, 0x01000002, 0x00000006, 0x00000004, 0x00000005, 0x00000001].map
      (fun w : Word =>
        let s := inState .check .wren w
        let opc := (s.lastCmd.extractLsb' 0 8).toNat
        let len := (s.lastCmd.extractLsb' 24 8).toNat
        decide (1 ≤ opc ∧ opc ≤ 6 ∧ (opc = 2 ∨ opc = 3 → 1 ≤ len ∧ len ≤ s.build.bufBytes))) = List.replicate 7 true ∧
    [0x00000003, 0x11000003, 0x00000002, 0x11000002, 0x01000000, 0x01000007].map
      (fun w : Word =>
        let s := inState .check .wren w
        let opc := (s.lastCmd.extractLsb' 0 8).toNat
        let len := (s.lastCmd.extractLsb' 24 8).toNat
        decide (1 ≤ opc ∧ opc ≤ 6 ∧ (opc = 2 ∨ opc = 3 → 1 ≤ len ∧ len ≤ s.build.bufBytes))) = List.replicate 6 false := by
  decide
theorem witness_AssertThenOfferAndWait :
    q.calm ∧ (inState .assert .wren 6).st = .assert ∧ inXfer.st = .xfer ∧ q.xferDone = false := by decide
theorem witness_ByteCompletesNotTheLast : inXfer.st = .xfer ∧ (brings 0xBE).calm ∧ (brings 0xBE).xferDone = true ∧
    ((brings 0xBE).xferErr && inXfer.build.transportHasErr) = false ∧ inXfer.si.toNat < inXfer.flen inXfer.fk - 1 := by decide

/-- The last data slot of `READ 0x0012, 4`. -/
def inLastSlot : State := inXfer.nextSlot

theorem inLastSlot_inv : Inv inLastSlot := { inXfer_inv with slot := by decide }

/-- The status slot of a poll. -/
def inPoll : State := { inState .xfer .poll 0x01001002 with si := 1 }

theorem inPoll_inv : Inv inPoll where
  legal := by decide
  bufWf := by decide
  bufBelow := by unfold Memory.Below; decide
  stageWf := by decide
  stageBelow := by unfold Memory.Below; decide
  limitPos := by decide
  busyResult := by decide
  frameValid := fun _ => ⟨by decide, .inr (.inl ⟨by decide, .inr (.inr rfl)⟩)⟩
  slot := by decide
  noAbort := by decide
  gapAbort := by decide
  pollsBound := by decide
  pollsBelow := by decide
  gapCount := by decide
  delayCount := by decide
  pgapCount := by decide

/-- A READ, where BUF changes, and a poll, where POLLCNT does. -/
theorem witness_LastByteClosesTheFrame :
    (Inv inLastSlot ∧ inLastSlot.st = .xfer ∧ inLastSlot.fk = .read ∧ inLastSlot.si.toNat = inLastSlot.flen inLastSlot.fk - 1 ∧
      ((brings 0xEF).xferErr && inLastSlot.build.transportHasErr) = false) ∧
    (Inv inPoll ∧ inPoll.st = .xfer ∧ inPoll.fk = .poll ∧ inPoll.si.toNat = inPoll.flen inPoll.fk - 1 ∧
      ((brings 0xEF).xferErr && inPoll.build.transportHasErr) = false) ∧
    (brings 0xEF).calm ∧ (brings 0xEF).xferDone = true :=
  ⟨⟨inLastSlot_inv, by decide⟩, ⟨inPoll_inv, by decide⟩, by decide⟩

/-- With TRANSPORT_HAS_ERR, and without it. -/
theorem witness_FailedByteAborts : inXfer.st = .xfer ∧ fails.calm ∧ fails.xferDone = true ∧ fails.xferErr = true ∧
    inXfer.build.transportHasErr = true ∧
    ({ inXfer with build := { Build.reference with transportHasErr := false } } : State).build.transportHasErr = false := by
  decide
theorem witness_FramerBytes : 3 < 3 + (inXfer.lastCmd.extractLsb' 24 8).toNat ∧ 6 < 3 + (inXfer.lastCmd.extractLsb' 24 8).toNat ∧
    ¬ 7 < 3 + (inXfer.lastCmd.extractLsb' 24 8).toNat ∧ inXfer.st = .xfer := by decide

/-- The first and the last data slot of a READ, the slots beside them, the status slot, and a WRSR whose ARG exceeds BUF_BYTES. -/
theorem witness_CaptureMap : inXfer.stage.wf ∧ inXfer.curArg.toNat ≤ inXfer.build.bufBytes ∧ inXfer.fk = .read ∧
    3 < 3 + inXfer.curArg.toNat ∧ 6 < 3 + inXfer.curArg.toNat ∧ ¬ 3 ≤ 2 ∧ ¬ 7 < 3 + inXfer.curArg.toNat ∧
    inPoll.fk = .poll ∧ inPoll.si.toNat = 1 ∧
    (inState .xfer .wrsr 0x8C000001).build.bufBytes < (inState .xfer .wrsr 0x8C000001).curArg.toNat ∧
    (inState .xfer .wrsr 0x8C000001).fk ≠ .read ∧ (inState .xfer .wrsr 0x8C000001).fk ≠ .rdsr := by decide

/-- A block in GAP, with one value of `cnt` above 1 and then with `cnt` at 1 on each way out. -/
theorem witness_LeavingGap : q.calm ∧
    ({ inState .gap .read 0x04001203 with cnt := 2 } : State).st = .gap ∧
    ({ inState .gap .read 0x04001203 with cnt := 1, abort := true, res := .busFault } : State).st = .gap ∧
    ({ inState .gap .wren 0x01001002 with cnt := 1 } : State).st = .gap ∧
    ({ inState .gap .write 0x01001002 with cnt := 1, policy := .fixedDelay, wdelay := 2 } : State).st = .gap ∧
    ({ inState .gap .poll 0x01001002 with cnt := 1, sr := 1, polls := 1, limit := 2, pollGap := 1 } : State).st = .gap := by
  decide
theorem witness_CountersTimeTheWaits :
    ({ inState .gap .read 0x04001203 with cnt := 1 } : State).st = .gap ∧ ([] : List CycleIn).length + 1 = (1 : Word).toNat ∧
    ({ inState .delay .write 0x01001002 with cnt := 3 } : State).st = .delay ∧ [q, q].length + 1 = (3 : Word).toNat ∧
    ({ inState .pgap .poll 0x01001002 with cnt := 3 } : State).st = .pgap ∧ (∀ y ∈ [q, q], y.calm) ∧ q.calm := by decide
theorem witness_FinishReportsTheResult : (inState .finish .read 0x04001203).st = .finish ∧ q.calm := by decide
theorem witness_AnswersOutsideXferAreIgnored : (inState .assert .wren 6).st ≠ .xfer ∧ State.reset.st ≠ .xfer := by decide

/-! ### Witnesses: commands -/

theorem witness_ReadCompletes :
    let fr := wholeFrame ([0, 0, 0] ++ [0xDE, 0xAD, 0xBE, 0xEF])
    let s := withBuf 0x11111111 (q :: q :: (fr ++ q :: [brings 0]))
    s.build.Legal ∧ s.stage.wf ∧ s.buf.wf ∧ s.st = .idle ∧ 1 ≤ 4 ∧ 4 ≤ s.build.bufBytes ∧
    s.pending = q :: q :: (fr ++ q :: [brings 0]) ∧ q.rst = false ∧ q.calm ∧ [(0 : Byte), 0, 0].length = 3 ∧
    [(0xDE : Byte), 0xAD, 0xBE, 0xEF].length = 4 ∧
    frameCycles s.build.csGap.toNat ([0, 0, 0] ++ [0xDE, 0xAD, 0xBE, 0xEF]) fr :=
  ⟨by decide, by decide, by decide, rfl, by decide, by decide, rfl, rfl, rfl, rfl, rfl, wholeFrame_cycles _⟩

/-- WDELAY at 2, and at 0. -/
theorem witness_WriteUnderFixedDelayCompletes : ∀ n ∈ [0, 2],
    let rest := wholeFrame [0] ++ wholeFrame [0, 0, 0, 0] ++ List.replicate n q ++ q :: []
    let s := ((withBuf 0x5A (q :: q :: rest)).setCfg 0).setWdelay (BitVec.ofNat 32 n)
    s.build.Legal ∧ s.st = .idle ∧ 1 ≤ s.build.bufBytes ∧ s.policy = .fixedDelay ∧ s.pending = q :: q :: rest ∧
    q.rst = false ∧ q.calm ∧ frameCycles s.build.csGap.toNat [0] (wholeFrame [0]) ∧ [(0 : Byte), 0, 0, 0].length = 3 + 1 ∧
    frameCycles s.build.csGap.toNat [0, 0, 0, 0] (wholeFrame [0, 0, 0, 0]) ∧
    calmCycles s.wdelay.toNat (List.replicate n q) := by
  intro n hn
  refine ⟨show Build.reference.Legal by decide, rfl, show 1 ≤ 16 by decide, rfl, rfl, rfl, rfl, wholeFrame_cycles _, rfl, wholeFrame_cycles _, ?_⟩
  fin_cases hn
  · exact calmCycles_replicate 0
  · exact calmCycles_replicate 2

/-- The polls of a WRITE, with one cycle of PGAP between them. -/
def twoPolls (a b : Byte) : List CycleIn := wholeFrame [0, a] ++ [q] ++ wholeFrame [0, b]

theorem twoPolls_cycles (a b : Byte) : pollCycles 1 1 ([a] ++ [b]) (twoPolls a b) :=
  ⟨0, wholeFrame [0, a], [q], wholeFrame [0, b], rfl, wholeFrame_cycles _, calmCycles_replicate 1, 0, wholeFrame_cycles _⟩

/-- The machine of traces X4, before a WRITE with two polls that bring `a` and `b`. -/
def beforePolls (a b : Byte) : State :=
  (withBuf 0x5A (q :: q :: (wholeFrame [0] ++ wholeFrame [0, 0, 0, 0] ++ twoPolls a b ++ q :: []))).setPollcfg 0x00010002

theorem witness_WriteUnderPollStatusCompletes :
    let s := beforePolls 0x01 0x00
    s.build.Legal ∧ s.st = .idle ∧ 1 ≤ s.build.bufBytes ∧ s.policy = .pollStatus ∧
    s.pending = q :: q :: (wholeFrame [0] ++ wholeFrame [0, 0, 0, 0] ++ twoPolls 0x01 0x00 ++ q :: []) ∧
    q.rst = false ∧ q.calm ∧ frameCycles s.build.csGap.toNat [0] (wholeFrame [0]) ∧ [(0 : Byte), 0, 0, 0].length = 3 + 1 ∧
    frameCycles s.build.csGap.toNat [0, 0, 0, 0] (wholeFrame [0, 0, 0, 0]) ∧
    pollCycles s.build.csGap.toNat s.pollGap.toNat ([0x01] ++ [0x00]) (twoPolls 0x01 0x00) ∧
    (∀ b ∈ [(0x01 : Byte)], b.getLsbD 0 = true) ∧ (0x00 : Byte).getLsbD 0 = false ∧ [(0x01 : Byte)].length + 1 ≤ s.limit.toNat :=
  ⟨by decide, rfl, by decide, rfl, rfl, rfl, rfl, wholeFrame_cycles _, rfl, wholeFrame_cycles _, twoPolls_cycles _ _, by decide,
    by decide, by decide⟩

theorem witness_WriteTimesOutAfterLimitPolls :
    let s := beforePolls 0x01 0x01
    s.build.Legal ∧ s.st = .idle ∧ 1 ≤ s.build.bufBytes ∧ s.policy = .pollStatus ∧
    s.pending = q :: q :: (wholeFrame [0] ++ wholeFrame [0, 0, 0, 0] ++ twoPolls 0x01 0x01 ++ q :: []) ∧
    q.rst = false ∧ q.calm ∧ frameCycles s.build.csGap.toNat [0] (wholeFrame [0]) ∧ [(0 : Byte), 0, 0, 0].length = 3 + 1 ∧
    frameCycles s.build.csGap.toNat [0, 0, 0, 0] (wholeFrame [0, 0, 0, 0]) ∧
    pollCycles s.build.csGap.toNat s.pollGap.toNat ([0x01] ++ [0x01]) (twoPolls 0x01 0x01) ∧
    (∀ b ∈ [(0x01 : Byte)] ++ [0x01], b.getLsbD 0 = true) ∧ [(0x01 : Byte)].length + 1 = s.limit.toNat :=
  ⟨by decide, rfl, by decide, rfl, rfl, rfl, rfl, wholeFrame_cycles _, rfl, wholeFrame_cycles _, twoPolls_cycles _ _, by decide,
    by decide⟩

/-- The machine before a command of one frame. -/
def beforeFrame (rx : List Byte) : State := withBuf 0x5A (q :: q :: (wholeFrame rx ++ q :: [brings 0]))

theorem witness_WrenAndWrdiComplete : let s := beforeFrame [0xFF]
    s.build.Legal ∧ s.st = .idle ∧ s.pending = q :: q :: (wholeFrame [0xFF] ++ q :: [brings 0]) ∧ q.rst = false ∧ q.calm ∧
    frameCycles s.build.csGap.toNat [0xFF] (wholeFrame [0xFF]) ∧ (Instr.wrdi 0xABCD 0) = .wrdi 0xABCD 0 :=
  ⟨by decide, rfl, rfl, rfl, rfl, wholeFrame_cycles _, rfl⟩
theorem witness_RdsrCompletes : let s := beforeFrame [0xFF, 0x03]
    s.build.Legal ∧ s.st = .idle ∧ s.pending = q :: q :: (wholeFrame [0xFF, 0x03] ++ q :: [brings 0]) ∧ q.rst = false ∧
    q.calm ∧ frameCycles s.build.csGap.toNat [0xFF, 0x03] (wholeFrame [0xFF, 0x03]) :=
  ⟨by decide, rfl, rfl, rfl, rfl, wholeFrame_cycles _⟩
theorem witness_WrsrCompletes : let s := beforeFrame [0xFF, 0xFF]
    s.build.Legal ∧ s.st = .idle ∧ s.pending = q :: q :: (wholeFrame [0xFF, 0xFF] ++ q :: [brings 0]) ∧ q.rst = false ∧
    q.calm ∧ frameCycles s.build.csGap.toNat [0xFF, 0xFF] (wholeFrame [0xFF, 0xFF]) :=
  ⟨by decide, rfl, rfl, rfl, rfl, wholeFrame_cycles _⟩

theorem witness_InvalidCommandsAreRejected :
    let x := accesses (.write 0x000 4 0x00000007)
    let s := withBuf 0x5A (x :: q :: q :: [])
    s.st = .idle ∧ s.pending = x :: q :: q :: [] ∧ x.rst = false ∧ q.calm ∧ (Instr.read 0 0).WellFormed ∧
    (Instr.write 0 17).WellFormed ∧ s.build.bufBytes < 17 ∧ x.host = .write 0x000 4 0x00000007 ∧
    ∃ e, decode 0x00000007 = .error e :=
  ⟨rfl, rfl, rfl, rfl, by decide, by decide, by decide, rfl, _, rfl⟩

/-- The last slot of a READ (RD4), and the only slot of a WRITE's first frame (WF1). -/
theorem witness_FaultInTheFirstFrameEndsTheCommand : ∀ rx ∈ [[0, 0, 0, 0xDE, 0xAD, 0xBE], ([] : List Byte)],
    let s := withBuf 0x11111111 (q :: q :: (brokenFrame rx ++ q :: []))
    s.build.Legal ∧ s.build.transportHasErr = true ∧ (Instr.read 0x0012 4).WellFormed ∧ (Instr.write 0x0010 1).WellFormed ∧
    s.st = .idle ∧ s.pending = q :: q :: (brokenFrame rx ++ q :: []) ∧ q.rst = false ∧ q.calm ∧ 4 ≤ s.build.bufBytes ∧
    (rx.length < 3 + 4 ∧ (rx = [] → rx.length < 1)) ∧ brokenFrameCycles s.build.csGap.toNat rx (brokenFrame rx) := by
  intro rx hrx
  refine ⟨show Build.reference.Legal by decide, rfl, by decide, by decide, rfl, rfl, rfl, rfl, show 4 ≤ 16 by decide, ?_,
    brokenFrame_cycles rx⟩
  fin_cases hrx <;> decide

/-- The first slot of the data frame, its AH (WF2), and its last data byte (WF4). -/
theorem witness_FaultInTheDataFrameEndsTheWrite : ∀ rx ∈ [([] : List Byte), [0], [0, 0, 0]],
    let s := withBuf 0x5A (q :: q :: (wholeFrame [0] ++ brokenFrame rx ++ q :: []))
    s.build.Legal ∧ s.build.transportHasErr = true ∧ s.st = .idle ∧ 1 ≤ s.build.bufBytes ∧
    s.pending = q :: q :: (wholeFrame [0] ++ brokenFrame rx ++ q :: []) ∧ q.rst = false ∧ q.calm ∧
    frameCycles s.build.csGap.toNat [0] (wholeFrame [0]) ∧ rx.length < 3 + 1 ∧
    brokenFrameCycles s.build.csGap.toNat rx (brokenFrame rx) := by
  intro rx hrx
  refine ⟨show Build.reference.Legal by decide, rfl, rfl, show 1 ≤ 16 by decide, rfl, rfl, rfl, wholeFrame_cycles _, ?_,
    brokenFrame_cycles rx⟩
  fin_cases hrx <;> decide

/-- The machine before a WRITE of one byte whose first poll reads 0x01 and whose second poll breaks off in its status slot (WF3,
with one cycle of PGAP). -/
def beforeBadPoll : State :=
  (withBuf 0x5A (q :: q :: (wholeFrame [0] ++ wholeFrame [0, 0, 0, 0] ++ wholeFrame [0, 1] ++ [q] ++ brokenFrame [0] ++
    q :: []))).setPollcfg 0x00010008

/-- WF3, and a first poll that fails in its first slot. -/
theorem witness_FaultInAPollEndsTheWrite :
    (let s := beforeBadPoll
     s.build.Legal ∧ s.build.transportHasErr = true ∧ s.st = .idle ∧ 1 ≤ s.build.bufBytes ∧ s.policy = .pollStatus ∧
      s.pending = q :: q :: (wholeFrame [0] ++ wholeFrame [0, 0, 0, 0] ++ wholeFrame [0, 1] ++ [q] ++ brokenFrame [0] ++ q :: []) ∧
      q.rst = false ∧ q.calm ∧ frameCycles s.build.csGap.toNat [0] (wholeFrame [0]) ∧
      frameCycles s.build.csGap.toNat [0, 0, 0, 0] (wholeFrame [0, 0, 0, 0]) ∧
      pollCycles s.build.csGap.toNat s.pollGap.toNat [1] (wholeFrame [0, 1]) ∧ (∀ b ∈ [(1 : Byte)], b.getLsbD 0 = true) ∧
      [(1 : Byte)].length < s.limit.toNat ∧ calmCycles s.pollGap.toNat [q] ∧ [(0 : Byte)].length < 2 ∧
      brokenFrameCycles s.build.csGap.toNat [0] (brokenFrame [0])) ∧
    (let s := beforePolls 0 0
     pollCycles s.build.csGap.toNat s.pollGap.toNat [] [] ∧ calmCycles 0 [] ∧ ([] : List Byte).length < s.limit.toNat ∧
      ([] : List Byte).length < 2 ∧ brokenFrameCycles s.build.csGap.toNat [] (brokenFrame [])) :=
  ⟨⟨by decide, rfl, rfl, by decide, rfl, rfl, rfl, rfl, wholeFrame_cycles _, wholeFrame_cycles _, ⟨0, wholeFrame_cycles _⟩,
    by decide, by decide, calmCycles_replicate 1, by decide, brokenFrame_cycles _⟩,
    rfl, calmCycles_replicate 0, by decide, by decide, brokenFrame_cycles _⟩

theorem witness_CommandWhileBusyIsDropped :
    (inXfer.withPending [q]).st ≠ .idle ∧ (inXfer.withPending [q]).pending = [q] ∧ q.rst = false := by decide

/-! ### Witnesses: frames, and commands over any cycles -/

/-- The machine before a READ of four bytes that ends in the cycles that are pending. -/
def beforeRead : State := beforeFrame [0, 0, 0, 0xDE, 0xAD, 0xBE, 0xEF]

theorem beforeRead_noReset : noReset beforeRead.pending := by unfold noReset; decide

theorem witness_ReadChangesOnlyItsBytes : beforeRead.st = .idle ∧ beforeRead.buf.wf ∧ beforeRead.stage.wf ∧ 4 ≤ 0xFF ∧
    noReset beforeRead.pending ∧ ∃ t, exec (.read 0x0012 4) beforeRead = .next t :=
  ⟨rfl, by decide, by decide, by decide, beforeRead_noReset, _, rfl⟩
theorem witness_WriteLeavesTheBuffers : beforeRead.st = .idle ∧ 1 ≤ 0xFF ∧ noReset beforeRead.pending ∧
    (beforeRead.setCfg 0).policy = .fixedDelay ∧ ∃ t, exec (.write 0x0010 1) beforeRead = .next t :=
  ⟨rfl, by decide, beforeRead_noReset, rfl, _, rfl⟩
theorem witness_LatchAndStatusCommandsLeaveTheRest : beforeRead.st = .idle ∧ noReset beforeRead.pending ∧
    ∃ t, exec (.wrsr 0x8C 0) beforeRead = .next t := ⟨rfl, beforeRead_noReset, _, rfl⟩

theorem witness_ReadFollowsItsPseudocode : beforeRead.st = .idle ∧ beforeRead.stage.wf ∧ 4 ≤ 0xFF ∧
    noReset beforeRead.pending ∧ ∃ t, exec (.read 0x0012 4) beforeRead = .next t ∧ t.st = .idle :=
  ⟨rfl, by decide, by decide, beforeRead_noReset, _, rfl, by decide +kernel⟩

theorem beforePolls_noReset : noReset (beforePolls 0x01 0x00).pending := by unfold noReset; decide

theorem witness_WriteFollowsItsPseudocode : (beforePolls 0x01 0x00).st = .idle ∧ (beforePolls 0x01 0x00).limit ≠ 0 ∧
    1 ≤ 0xFF ∧ noReset (beforePolls 0x01 0x00).pending ∧
    ∃ t, exec (.write 0x0010 1) (beforePolls 0x01 0x00) = .next t ∧ t.st = .idle :=
  ⟨rfl, by decide, by decide, beforePolls_noReset, _, rfl, by decide +kernel⟩
theorem witness_LatchAndStatusCommandsFollowTheirPseudocode : (beforeFrame [0xFF, 0x03]).st = .idle ∧
    noReset (beforeFrame [0xFF, 0x03]).pending ∧
    ∃ t, exec (.rdsr 0 0) (beforeFrame [0xFF, 0x03]) = .next t ∧ t.st = .idle :=
  ⟨rfl, by unfold noReset; decide, _, rfl, by decide +kernel⟩

/-- A READ that ends with Ok, and one that ends with BusFault. -/
theorem witness_ReadIsAllOrNone :
    (beforeRead.st = .idle ∧ beforeRead.stage.wf ∧ beforeRead.buf.wf ∧ noReset beforeRead.pending ∧
      ∃ t, exec (.read 0x0012 4) beforeRead = .next t ∧ t.done = true ∧ t.result = .ok) ∧
    (let s := withBuf 0x11111111 (q :: q :: brokenFrame [0, 0, 0, 0xDE] ++ [q])
     s.st = .idle ∧ s.stage.wf ∧ s.buf.wf ∧ noReset s.pending ∧
      ∃ t, exec (.read 0x0012 4) s = .next t ∧ t.done = true ∧ t.result = .busFault) :=
  ⟨⟨rfl, by decide, by decide, beforeRead_noReset, _, rfl, by decide +kernel, by decide +kernel⟩,
    rfl, by decide, by decide, by unfold noReset; decide, _, rfl, by decide +kernel, by decide +kernel⟩

theorem witness_WriteFrameFollowsWrenFrame : (beforePolls 0x01 0x00).st = .idle ∧ (Instr.write 0x0010 1).WellFormed ∧
    ∃ t fr, exec (.write 0x0010 1) (beforePolls 0x01 0x00) = .next t ∧
      (framesBetween (beforePolls 0x01 0x00) t)[1]? = some fr ∧ fr.sent.head? = some 0x02 :=
  ⟨rfl, by decide, _, [0x02, 0x00, 0x10, 0x5A].map fun b => ⟨b, 0, false⟩, rfl, by decide +kernel, by decide⟩

/-- The host writes CMD, and the WRITE of trace X4 runs. -/
def writeRun : State := (beforePolls 0x01 0x00).withPending
  (accesses (hw 0x000 0x01001002) :: (beforePolls 0x01 0x00).pending.tail)

/-- The host writes CMD for two WRENs, one right after the other (CS1). -/
def twoWrens : State :=
  withBuf 0 (accesses (hw 0x000 6) :: q :: wholeFrame [0] ++ q :: accesses (hw 0x000 6) :: q :: wholeFrame [0] ++ [q])

theorem reaches_step {s t : State} (h : Reaches s t) : Reaches s (after (step t)) := by
  refine .more t _ h ?_
  rcases step_cases t with ⟨_, e⟩ | ⟨w, i, _, _, e⟩ | ⟨w, _, _, _, e⟩
  · rw [e]; rfl
  · rw [e, exec_eq_issue]; rfl
  · rw [e]; rfl

/-- What a list holds between two places has a property that can be computed. -/
theorem between_of_all {l : List CycleRecord} {p : CycleRecord → Bool} {m n : Nat}
    (h : ((l.take n).drop m).all p = true) (k : Nat) (c : CycleRecord) (hm : m ≤ k) (hn : k < n) (hk : l[k]? = some c) :
    p c = true := by
  refine List.all_eq_true.mp h c (List.mem_of_getElem? (i := k - m) ?_)
  rw [List.getElem?_drop, show m + (k - m) = k by omega, List.getElem?_take, if_pos hn, hk]

/-- Cycles 3 and 5 of trace X4, with one cycle of GAP between them; and the frames of two commands, with CS_GAP + 3 = 4 cycles
between them. -/
theorem witness_ChipSelectStaysHighBetweenFrames :
    (let t := after (step writeRun)
     writeRun.build.Legal ∧ writeRun.st = .idle ∧ Reaches writeRun t ∧ ∃ a b, (elapsed writeRun t)[3]? = some a ∧
      (elapsed writeRun t)[5]? = some b ∧ 3 + 1 < 5 ∧ a.outputs.csN = false ∧ b.outputs.csN = false ∧
      (∀ k c, 3 < k → k < 5 → (elapsed writeRun t)[k]? = some c → c.outputs.csN = true) ∧
      ∀ k c, 3 ≤ k → k < 5 → (elapsed writeRun t)[k]? = some c → c.inputs.rst = false) ∧
    (let u := after (step twoWrens)
     let t := after (step u)
     twoWrens.build.Legal ∧ twoWrens.st = .idle ∧ Reaches twoWrens u ∧ u.st = .idle ∧ Reaches u t ∧ ∃ a b,
      (elapsed twoWrens t)[3]? = some a ∧ (elapsed twoWrens t)[8]? = some b ∧ 3 < (elapsed twoWrens u).length ∧
      (elapsed twoWrens u).length ≤ 8 ∧ a.outputs.csN = false ∧ b.outputs.csN = false ∧
      (∀ k c, 3 < k → k < 8 → (elapsed twoWrens t)[k]? = some c → c.outputs.csN = true) ∧
      ∀ k c, 3 ≤ k → k < 8 → (elapsed twoWrens t)[k]? = some c → c.inputs.rst = false) ∧ State.reset.st = .idle := by
  refine ⟨⟨by decide, rfl, reaches_step .refl, ⟨brings 0, ⟨false, true, true, some 0x06, none⟩⟩,
    ⟨q, ⟨false, true, false, none, none⟩⟩, by decide +kernel, by decide +kernel, by decide, rfl, rfl, ?_, ?_⟩,
    ⟨by decide, rfl, reaches_step .refl, by decide +kernel, reaches_step .refl,
      ⟨brings 0, ⟨false, true, true, some 0x06, none⟩⟩, ⟨q, ⟨false, true, false, none, none⟩⟩, by decide +kernel,
      by decide +kernel, by decide +kernel, by decide +kernel, rfl, rfl, ?_, ?_⟩, rfl⟩
  · exact fun k c h3 h5 hk => between_of_all (m := 4) (n := 5) (p := fun r => r.outputs.csN) (by decide +kernel) k c h3 h5 hk
  · exact fun k c h3 h5 hk => by
      simpa using between_of_all (m := 3) (n := 5) (p := fun r => !r.inputs.rst) (by decide +kernel) k c h3 h5 hk
  · exact fun k c h3 h5 hk => between_of_all (m := 4) (n := 8) (p := fun r => r.outputs.csN) (by decide +kernel) k c h3 h5 hk
  · exact fun k c h3 h5 hk => by
      simpa using between_of_all (m := 3) (n := 8) (p := fun r => !r.inputs.rst) (by decide +kernel) k c h3 h5 hk

/-- A WRITE that ends with Ok, one that ends with Timeout, a command that is invalid, one that ends with BusFault. -/
theorem witness_FrameCount :
    (Instr.write 0x0010 1).WellFormed ∧ (Instr.read 0 0).WellFormed ∧ (Instr.wren 0 0).WellFormed ∧
    [(beforePolls 0x01 0x00, Instr.write 0x0010 1), (beforePolls 0x01 0x01, .write 0x0010 1), (beforeRead, .read 0 0),
      (withBuf 0 (q :: q :: brokenFrame [] ++ [q]), .wren 0 0)].map
      (fun p => (p.1.st, decide (p.1.limit ≠ 0), p.1.pending.any CycleIn.rst, (after (exec p.2 p.1)).done,
        (after (exec p.2 p.1)).result)) =
    [(.idle, true, false, true, .ok), (.idle, true, false, true, .timeout), (.idle, true, false, true, .invalidArgument),
      (.idle, true, false, true, .busFault)] := by
  refine ⟨by decide, by decide, by decide, by decide +kernel⟩

/-- One cycle of a device without a write in progress that sees chip-select stay high. -/
theorem rests {p : DeviceParams} {d f : Device} {cs : List WireCycle} (hw : d.window = none) (hb : d.writing = none)
    (h : Device.Run p d cs f) : Device.Run p d (.high :: cs) f := .cons _ _ _ _ _ (.high _ _ hw (.still _ hb)) h

/-- A low cycle of such a device in which an exchange may complete. -/
theorem shifts {p : DeviceParams} {d f : Device} {x : Option Exchange} {cs : List WireCycle} (hb : d.writing = none)
    (hx : ∀ e, x = some e → d.mayBring p false e) (h : Device.Run p (d.extend false x false) cs f) :
    Device.Run p d (.low x false :: cs) f := by
  have hd : d.busy = false := by simp [Device.busy, hb]
  have hc := Device.Cycle.low (p := p) d d x false (.still _ hb) (by simpa [hd] using hx)
  rw [hd] at hc
  exact .cons _ _ _ _ _ hc h

/-- A low cycle whose exchange follows no RDSR opcode and no address of a READ, so that any byte may come back. -/
theorem shifts_any {p : DeviceParams} {d f : Device} {x : Option Exchange} {cs : List WireCycle} (hb : d.writing = none)
    (ho : d.openWindow.exchanges.sent ≠ [opcRdsr] ∧
      (d.openWindow.exchanges.sent.head? ≠ some opcRead ∨ d.openWindow.exchanges.length < 3))
    (h : Device.Run p (d.extend false x false) cs f) : Device.Run p d (.low x false :: cs) f := by
  obtain ⟨hs, hr⟩ := ho
  refine shifts hb (fun e _ w hw _ _ => ⟨fun h' => absurd h' ?_, fun ah al ds h' => absurd h' fun h' => ?_⟩) h
  · simpa [Device.openWindow, hw] using hs
  · simp only [Device.openWindow, hw, Option.getD_some] at hr
    rcases hr with hr | hr
    · simp [h'] at hr
    · have := congrArg List.length h'
      simp [Frame.sent] at this
      omega

/-- The machine before a WRITE of one byte (WR4) with one poll, and a READ of it after an RDSR. -/
def beforeRoundTrip : State := withBuf 0x5A (q :: q :: wholeFrame [0] ++ wholeFrame [0, 0, 0, 0] ++ wholeFrame [0, 0] ++ [q] ++
  (accesses (hw 0x000 5) :: q :: wholeFrame [0, 0] ++ [q]) ++ q :: q :: wholeFrame [0, 0, 0, 0x5A] ++ [q])

/-- One byte, whose write takes effect before the first poll, and an RDSR before the READ. -/
theorem witness_RoundTripThroughTheDevice :
    let p : DeviceParams := ⟨0x10000, fun a => a / 64, some 1⟩
    let d0 : Device := ⟨false, none, [], none⟩
    let d1 : Device := ⟨false, none, [(0x10, 0x5A)], none⟩
    let s := beforeRoundTrip
    let t := after (exec (.write 0x0010 1) s)
    let u := after (step t)
    let v := after (exec (.read 0x0010 1) u)
    (s.build.Legal ∧ s.st = .idle ∧ s.buf.wf ∧ s.stage.wf ∧ 1 ≤ s.build.bufBytes) ∧
    (d0.window = none ∧ d0.busy = false ∧ d0.array.wf ∧ p.inRange (0x0010 : Addr).toNat 1) ∧
    exec (.write 0x0010 1) s = .next t ∧ t.done = true ∧ t.result = .ok ∧ s.policy = .pollStatus ∧
    (∃ k, p.writeTime = some k ∧ k ≤ s.wdelay.toNat + s.build.csGap.toNat) ∧ Reaches t u ∧ u.st = .idle ∧
    (∀ r ∈ elapsed t u, r.outputs.csN = false → r.inputs.rst = false) ∧ (∀ f ∈ framesBetween t u, f.harmless p) ∧
    exec (.read 0x0010 1) u = .next v ∧ v.done = true ∧ v.result = .ok ∧ Device.Run p d0 (wireBetween s v).tail d1 := by
  intro p d0 d1 s t u v
  have hf : framesBetween t u = [[⟨0x05, 0, false⟩, ⟨0x00, 0, false⟩]] := by decide +kernel
  have hw : (wireBetween s v).tail =
      [.high, .low none false, .low (some ⟨0x06, 0, false⟩) false, .high,
        .low none false, .low (some ⟨0x02, 0, false⟩) false, .low (some ⟨0x00, 0, false⟩) false,
        .low (some ⟨0x10, 0, false⟩) false, .low (some ⟨0x5A, 0, false⟩) false, .high,
        .low none false, .low (some ⟨0x05, 0, false⟩) false, .low (some ⟨0x00, 0, false⟩) false, .high, .high,
        .high, .high, .low none false, .low (some ⟨0x05, 0, false⟩) false, .low (some ⟨0x00, 0, false⟩) false, .high, .high,
        .high, .high, .low none false, .low (some ⟨0x03, 0, false⟩) false, .low (some ⟨0x00, 0, false⟩) false,
        .low (some ⟨0x10, 0, false⟩) false, .low (some ⟨0x00, 0x5A, false⟩) false, .high, .high] := by decide +kernel
  refine ⟨⟨by decide, rfl, by decide, by decide, by decide⟩,
    ⟨rfl, rfl, by decide, by unfold DeviceParams.inRange DeviceParams.inArray; decide⟩, rfl, by decide +kernel, by decide +kernel, rfl,
    ⟨1, rfl, by decide⟩, reaches_step .refl, by decide +kernel, by decide +kernel, ?_, rfl, by decide +kernel,
    by decide +kernel, ?_⟩
  · rw [hf]
    intro f h
    obtain rfl := List.mem_singleton.mp h
    exact ⟨by unfold Frame.unfailing; decide, .inr (.inr (.inl ⟨0x00, rfl⟩))⟩
  · rw [hw]
    refine rests rfl rfl (shifts_any rfl (by decide) (shifts_any rfl (by decide) ?_))
    refine .cons _ _ _ _ _ (.rises _ _ _ _ rfl (.wren ⟨rfl, by unfold Frame.unfailing; decide⟩ rfl rfl) (.still _ rfl)) ?_
    refine shifts_any rfl (by decide) (shifts_any rfl (by decide) (shifts_any rfl (by decide) (shifts_any rfl (by decide)
      (shifts_any rfl (by decide) ?_))))
    refine .cons _ _ _ _ _ (.rises _ _ _ _ rfl (.writeStarts 0x00 0x10 [0x5A] false ⟨rfl, by unfold Frame.unfailing; decide⟩ rfl
      rfl rfl (by decide) (by unfold DeviceParams.inRange DeviceParams.inArray; decide)) (.completes _ 0 rfl)) ?_
    refine shifts_any rfl (by decide) (shifts_any rfl (by decide) (shifts rfl ?_ ?_))
    · rintro e ⟨⟩ w ⟨⟩ - -
      exact ⟨fun _ => rfl, fun _ _ _ h => by cases h⟩
    refine .cons _ _ _ _ _ (.rises _ _ _ _ rfl (.status 0x00 false ⟨rfl, by unfold Frame.unfailing; decide⟩ rfl) (.still _ rfl)) ?_
    refine rests rfl rfl (rests rfl rfl (rests rfl rfl (shifts_any rfl (by decide) (shifts_any rfl (by decide)
      (shifts rfl ?_ ?_)))))
    · rintro e ⟨⟩ w ⟨⟩ - -
      exact ⟨fun _ => rfl, fun _ _ _ h => by cases h⟩
    refine .cons _ _ _ _ _ (.rises _ _ _ _ rfl (.status 0x00 false ⟨rfl, by unfold Frame.unfailing; decide⟩ rfl) (.still _ rfl)) ?_
    refine rests rfl rfl (rests rfl rfl (rests rfl rfl (shifts_any rfl (by decide) (shifts_any rfl (by decide)
      (shifts_any rfl (by decide) (shifts_any rfl (by decide) (shifts rfl ?_ ?_)))))))
    · rintro e ⟨⟩ w ⟨⟩ - -
      refine ⟨fun h => (by cases h), fun ah al ds h _ _ _ => ?_⟩
      cases h
      rfl
    refine .cons _ _ _ _ _ (.rises _ _ _ _ rfl (.read 0x00 0x10 [0x00] false ⟨rfl, by unfold Frame.unfailing; decide⟩ rfl rfl
      (by unfold DeviceParams.inArray; decide)) (.still _ rfl)) ?_
    exact rests rfl rfl (.nil _)

/-! ### Witnesses: the host's sequences -/

/-- Four bytes over the whole of BUF word 0; and LEN at 0 and at BUF_BYTES + 1. -/
theorem witness_ReadEepromGivesTheBytes :
    (let fr := wholeFrame ([0, 0, 0] ++ [0xDE, 0xAD, 0xBE, 0xEF])
     let s := withBuf 0 (q :: q :: (fr ++ q :: q :: ([q] ++ [])))
     s.build.Legal ∧ s.stage.wf ∧ s.buf.wf ∧ s.st = .idle ∧ 4 ≤ s.build.bufBytes ∧
      s.pending = q :: q :: (fr ++ q :: q :: ([q] ++ [])) ∧ q.rst = false ∧ q.calm ∧
      frameCycles s.build.csGap.toNat ([0, 0, 0] ++ [0xDE, 0xAD, 0xBE, 0xEF]) fr ∧ [q].length = (4 + 3) / 4 ∧ noReset [q]) ∧
    (let s := withBuf 0 [q, q, q, q]
     s.st = .idle ∧ s.build.bufBytes < 17 ∧ 17 ≤ 0xFF ∧ s.pending = q :: q :: q :: q :: []) :=
  ⟨⟨by decide, by decide, by decide, rfl, by decide, rfl, rfl, rfl, wholeFrame_cycles _, rfl, by unfold noReset; decide⟩,
    rfl, by decide, by decide, rfl⟩

/-- One byte, under either policy (WR1 and WR4); and more data than BUF holds. -/
theorem witness_WriteEepromSendsTheBytes :
    (let xs := wholeFrame [0] ++ wholeFrame [0, 0, 0, 0] ++ wholeFrame [0, 0] ++ q :: q :: []
     let s := withBuf 0 ([q] ++ q :: q :: xs)
     s.build.Legal ∧ s.buf.wf ∧ s.st = .idle ∧ 1 ≤ s.build.bufBytes ∧ s.pending = [q] ++ q :: q :: xs ∧
      [q].length = ([0x5A] : List Byte).length.add 3 / 4 ∧ noReset [q] ∧ q.rst = false ∧ q.calm ∧
      frameCycles s.build.csGap.toNat [0] (wholeFrame [0]) ∧
      frameCycles s.build.csGap.toNat [0, 0, 0, 0] (wholeFrame [0, 0, 0, 0]) ∧
      waitCycles s (wholeFrame [0, 0]) ∧ waitCycles (s.setCfg 0) []) ∧
    (let s := withBuf 0 (List.replicate 5 q ++ [q, q, q, q])
     s.st = .idle ∧ s.build.bufBytes < (List.replicate 17 (0 : Byte)).length ∧
      s.pending = List.replicate 5 q ++ q :: q :: q :: q :: [] ∧ (List.replicate 5 q).length = (17 + 3) / 4 ∧
      noReset (List.replicate 5 q)) :=
  ⟨⟨by decide, by decide, rfl, by decide, rfl, rfl, by unfold noReset; decide, rfl, rfl, wholeFrame_cycles _,
    wholeFrame_cycles _, .inr ⟨rfl, [], 0, ⟨0, wholeFrame_cycles _⟩, by decide, by decide, by decide⟩,
    .inl ⟨rfl, calmCycles_replicate 0⟩⟩,
    rfl, by decide, rfl, rfl, by unfold noReset; decide⟩

theorem witness_ReadStatusGivesTheStatusByte : let fr := wholeFrame [0xFF, 0x0C]
    let s := withBuf 0 (q :: q :: (fr ++ q :: q :: []))
    s.build.Legal ∧ s.st = .idle ∧ s.pending = q :: q :: (fr ++ q :: q :: []) ∧ q.rst = false ∧ q.calm ∧
    frameCycles s.build.csGap.toNat [0xFF, 0x0C] fr :=
  ⟨by decide, rfl, rfl, rfl, rfl, wholeFrame_cycles _⟩

end Sys2Proof.Tests
end

/-! SUPPORT. Obligation O9: every step keeps the invariant of the block. `Inv` names for each of its bounds the FSM states in
which it holds. A transition is from one FSM state to another, so here the same invariant is read the other way round
(`inv_iff`): what stands in every state (`State.Standing`), and for each FSM state all that holds in it (`State.Phase`). -/

section
namespace Sys2Proof.Machine

/-! ### The invariant, FSM state by FSM state -/

/-- The part of `Inv` that asks nothing of the FSM state. -/
structure State.Standing (s : State) : Prop where
  legal : s.build.Legal
  bufWf : s.buf.wf
  bufBelow : s.buf.Below s.build.bufBytes
  stageWf : s.stage.wf
  stageBelow : s.stage.Below s.build.bufBytes
  limitPos : s.limit ≠ 0

/-- R35: DONE and RESULT read 0. -/
def State.Unreported (s : State) : Prop := s.done = false ∧ s.result = .ok

/-- R122, R123, R130: the command is valid and the current frame is one of its frames. -/
def State.OwnFrame (s : State) : Prop := s.validCommand ∧ frameOf s.curOpc s.fk

/-- R26: nothing has failed. -/
def State.Unfailed (s : State) : Prop := s.abort = false ∧ s.res = .ok

/-- R128: an exchange of the frame has failed. -/
def State.Faulted (s : State) : Prop := s.abort = true ∧ s.res = .busFault

/-- R25: the down-counter is on its way from `top` to 1. -/
def State.Counting (s : State) (top : Word) : Prop := 1 ≤ s.cnt ∧ s.cnt ≤ top

/-- The part of `Inv` that belongs to an FSM state. -/
def State.Phase (s : State) : SeqState → Prop
  | .idle => True
  | .check => s.Unreported ∧ s.Unfailed ∧ s.polls < s.limit
  | .assert => s.Unreported ∧ s.OwnFrame ∧ s.Unfailed ∧ s.polls < s.limit
  | .xfer => s.Unreported ∧ s.OwnFrame ∧ s.Unfailed ∧ s.polls < s.limit ∧ s.si.toNat < s.flen s.fk
  | .gap => s.Unreported ∧ s.OwnFrame ∧ (s.Unfailed ∨ s.Faulted) ∧ s.polls ≤ s.limit ∧ (s.fk ≠ .poll → s.polls < s.limit) ∧
      s.Counting (s.build.csGap.setWidth 32)
  | .delay => s.Unreported ∧ s.OwnFrame ∧ s.Unfailed ∧ s.polls ≤ s.limit ∧ s.fk = .write ∧ s.Counting s.wdelay
  | .pgap => s.Unreported ∧ s.OwnFrame ∧ s.Unfailed ∧ s.polls < s.limit ∧ s.fk = .poll ∧
      s.Counting (s.pollGap.setWidth 32)
  | .finish => s.Unreported ∧ s.polls ≤ s.limit

theorem Inv.standing {s : State} (h : Inv s) : s.Standing :=
  ⟨h.legal, h.bufWf, h.bufBelow, h.stageWf, h.stageBelow, h.limitPos⟩

theorem Inv.phase {s : State} (h : Inv s) : s.Phase s.st := by
  have unreported (hb : s.st ≠ .idle) : s.Unreported := h.busyResult hb
  have ownFrame (hf : s.st.inFrame = true) : s.OwnFrame := h.frameValid hf
  cases hst : s.st <;> rw [hst] at unreported ownFrame
  case idle => trivial
  case check => exact ⟨unreported nofun, h.noAbort (by simp [hst]), h.pollsBelow (by simp [hst])⟩
  case assert => exact ⟨unreported nofun, ownFrame rfl, h.noAbort (by simp [hst]), h.pollsBelow (by simp [hst])⟩
  case xfer => exact ⟨unreported nofun, ownFrame rfl, h.noAbort (by simp [hst]), h.pollsBelow (by simp [hst]), h.slot hst⟩
  case gap =>
    exact ⟨unreported nofun, ownFrame rfl, h.gapAbort hst, h.pollsBound (by simp [hst]),
      fun hk => h.pollsBelow (by simp [hst, hk]), h.gapCount hst⟩
  case delay =>
    exact ⟨unreported nofun, ownFrame rfl, h.noAbort (by simp [hst]), h.pollsBound (by simp [hst]), h.delayCount hst⟩
  case pgap =>
    exact ⟨unreported nofun, ownFrame rfl, h.noAbort (by simp [hst]), h.pollsBelow (by simp [hst]), h.pgapCount hst⟩
  case finish => exact ⟨unreported nofun, h.pollsBound (by simp [hst])⟩

theorem inv_of_standing_of_phase {s : State} (h : s.Standing) (hp : s.Phase s.st) : Inv s := by
  cases hst : s.st <;> rw [hst] at hp
  case' check => obtain ⟨⟨hd, hr⟩, ⟨ha, he⟩, hpolls⟩ := hp
  case' assert => obtain ⟨⟨hd, hr⟩, ⟨hv, hf⟩, ⟨ha, he⟩, hpolls⟩ := hp
  case' xfer => obtain ⟨⟨hd, hr⟩, ⟨hv, hf⟩, ⟨ha, he⟩, hpolls, hsi⟩ := hp
  case' gap => obtain ⟨⟨hd, hr⟩, ⟨hv, hf⟩, hfail, hpolls, hbelow, hc, hc'⟩ := hp
  case' delay => obtain ⟨⟨hd, hr⟩, ⟨hv, hf⟩, ⟨ha, he⟩, hpolls, hk, hc, hc'⟩ := hp
  case' pgap => obtain ⟨⟨hd, hr⟩, ⟨hv, hf⟩, ⟨ha, he⟩, hpolls, hk, hc, hc'⟩ := hp
  case' finish => obtain ⟨⟨hd, hr⟩, hpolls⟩ := hp
  all_goals
    refine ⟨h.legal, h.bufWf, h.bufBelow, h.stageWf, h.stageBelow, h.limitPos, ?_, ?_, ?_, ?_, ?_, ?_, ?_, ?_, ?_, ?_⟩ <;>
      simp_all [SeqState.inFrame, State.Unfailed, State.Faulted, BitVec.le_of_lt]

/-- The invariant, FSM state by FSM state. -/
theorem inv_iff (s : State) : Inv s ↔ s.Standing ∧ s.Phase s.st :=
  ⟨fun h => ⟨h.standing, h.phase⟩, fun ⟨h, hp⟩ => inv_of_standing_of_phase h hp⟩

theorem State.phase_of_idle {s : State} (h : s.st = .idle) : s.Phase s.st := by
  rw [h]; trivial

/-! ### Frames -/

/-- R96: every frame has at least one byte. -/
theorem State.flen_pos (s : State) (fk : FrameKind) : 0 < s.flen fk := by
  cases fk <;> simp [State.flen]

/-- R96, R24: the slots of a frame are numbered without wrapping in the 9 bits of `si`. -/
theorem State.flen_lt (s : State) (fk : FrameKind) : s.flen fk < 2 ^ 9 := by
  have harg : s.curArg.toNat < 256 := s.curArg.isLt
  cases fk <;> simp only [State.flen] <;> omega

/-- R123: the first frame of a valid command is one of its frames. -/
theorem State.frameOf_firstFrame {s : State} (h : s.validCommand = true) : frameOf s.curOpc (firstFrame s.curOpc) := by
  have hopc : s.curOpc ∈ [opcWrsr, opcWrite, opcRead, opcWrdi, opcRdsr, opcWren] := by
    simp only [State.validCommand, Bool.and_eq_true, decide_eq_true_eq] at h
    exact h.1
  generalize s.curOpc = opc at hopc
  simp only [List.mem_cons, List.not_mem_nil, or_false] at hopc
  unfold frameOf
  obtain rfl | rfl | rfl | rfl | rfl | rfl := hopc <;> decide

/-- R130: a frame of kind F_WRITE is a WRITE's, and so may be followed by a poll. -/
theorem frameOf_poll_of_write {opc : Byte} (h : frameOf opc .write) : frameOf opc .poll := by
  simp_all [frameOf]

/-! ### The down-counter -/

/-- R9: CS_GAP is a legal value to count down from. -/
theorem one_le_csGap {b : Build} (h : b.Legal) : (1 : Word) ≤ b.csGap.setWidth 32 := by
  obtain ⟨-, -, hgap, -⟩ := h
  bv_omega

/-- One cycle of the down-counter that does not end the wait. -/
theorem State.Counting.countDown {s : State} {top : Word} (h : s.Counting top) (hc : 1 < s.cnt) : s.countDown.Counting top := by
  obtain ⟨h1, h2⟩ := h
  change 1 ≤ s.cnt - 1 ∧ s.cnt - 1 ≤ top
  constructor <;> bv_omega

/-! ### What stands in every state -/

theorem State.pollDecision_buffers (s : State) : s.pollDecision.buf = s.buf ∧ s.pollDecision.stage = s.stage := by
  rcases s.pollDecision_cases with ⟨-, e⟩ | ⟨-, -, e⟩ | ⟨-, -, -, e⟩ | ⟨-, -, -, e⟩ <;> rw [e] <;> exact ⟨rfl, rfl⟩

theorem State.afterGap_buffers (s : State) : s.afterGap.buf = s.buf ∧ s.afterGap.stage = s.stage := by
  rcases s.afterGap_cases with ⟨-, e⟩ | ⟨-, -, -, e⟩ | ⟨-, -, -, -, e⟩ | ⟨-, -, -, -, e⟩ | ⟨-, -, -, e⟩ | ⟨-, -, e⟩ |
    ⟨-, -, -, -, e⟩ <;> rw [e]
  case inr.inr.inr.inr.inr.inl => exact s.pollDecision_buffers
  all_goals exact ⟨rfl, rfl⟩

/-- Outside XFER the FSM leaves both buffers alone. -/
theorem State.fsmEdge_buffers_of_not_xfer {s : State} (h : s.st ≠ .xfer) (x : CycleIn) :
    (s.fsmEdge x).buf = s.buf ∧ (s.fsmEdge x).stage = s.stage := by
  unfold State.fsmEdge
  cases hst : s.st <;> dsimp only
  case xfer => exact absurd hst h
  case check => rcases s.checkEdge_cases with ⟨-, e⟩ | ⟨-, e⟩ <;> rw [e] <;> exact ⟨rfl, rfl⟩
  case gap =>
    unfold State.gapEdge
    split
    · exact ⟨rfl, rfl⟩
    · exact s.afterGap_buffers
  case delay => unfold State.delayEdge; split <;> exact ⟨rfl, rfl⟩
  case pgap => unfold State.pgapEdge; split <;> exact ⟨rfl, rfl⟩
  case idle | assert | finish => exact ⟨rfl, rfl⟩

theorem State.Standing.capture {s : State} (h : s.Standing) (fk : FrameKind) (k : Nat) (rx : Byte) :
    (s.capture fk k rx).Standing := by
  rcases s.capture_cases fk k rx with ⟨-, -, -, e⟩ | ⟨-, -, e⟩ | e <;> rw [e]
  · exact { h with stageWf := State.wf_setStage h.stageWf _ _, stageBelow := State.below_setStage h.stageBelow _ _ }
  · exact { h with }
  · exact h

theorem State.Standing.frameEffect {s : State} (h : s.Standing) (fk : FrameKind) : (s.frameEffect fk).Standing := by
  rcases s.frameEffect_cases fk with ⟨-, e⟩ | ⟨-, e⟩ | ⟨-, -, e⟩ <;> rw [e]
  · exact { h with bufWf := State.wf_commitStage h.bufWf _, bufBelow := State.below_commitStage h.bufBelow _ }
  · exact { h with }
  · exact h

/-- R98, R127: XFER writes one byte of STAGE, or copies STAGE to BUF, below BUF_BYTES both. -/
theorem State.Standing.xferEdge {s : State} (h : s.Standing) (x : CycleIn) : (s.xferEdge x).Standing := by
  rcases s.xferEdge_cases x with ⟨-, e⟩ | ⟨-, -, e⟩ | ⟨-, -, -, e⟩ | ⟨-, -, -, e⟩ <;> rw [e]
  · exact h
  · exact { h with }
  · exact { h.capture s.fk s.si.toNat x.xferRx with }
  · exact { (h.capture s.fk s.si.toNat x.xferRx).frameEffect s.fk with }

theorem State.Standing.fsmEdge {s : State} (h : s.Standing) (x : CycleIn) : (s.fsmEdge x).Standing := by
  by_cases hst : s.st = .xfer
  · have e : s.fsmEdge x = s.xferEdge x := by simp only [State.fsmEdge, hst]
    rw [e]
    exact h.xferEdge x
  · obtain ⟨-, -, -, -, hlimit, -, hbuild, -, -⟩ := s.sameConfig_fsmEdge x
    obtain ⟨hbuf, hstage⟩ := State.fsmEdge_buffers_of_not_xfer hst x
    obtain ⟨legal, bufWf, bufBelow, stageWf, stageBelow, limitPos⟩ := h
    constructor <;> simpa only [hlimit, hbuild, hbuf, hstage]

/-! ### The FSM's transitions -/

/-- R122, R123: CHECK. -/
theorem State.phase_checkEdge {s : State} (hp : s.Phase .check) : s.checkEdge.Phase s.checkEdge.st := by
  obtain ⟨hr, hn, hpolls⟩ := hp
  rcases s.checkEdge_cases with ⟨hv, e⟩ | ⟨-, e⟩ <;> rw [e]
  · exact ⟨hr, ⟨hv, State.frameOf_firstFrame hv⟩, hn, hpolls⟩
  · exact ⟨hr, BitVec.le_of_lt hpolls⟩

/-- R124: ASSERT. -/
theorem State.phase_assertEdge {s : State} (hp : s.Phase .assert) : s.assertEdge.Phase .xfer := by
  obtain ⟨hr, hf, hn, hpolls⟩ := hp
  exact ⟨hr, hf, hn, hpolls, s.flen_pos s.fk⟩

/-- R126: the next slot exists. -/
theorem State.phase_nextSlot {s : State} (hst : s.st = .xfer) (hp : s.Phase .xfer) (hs : s.si.toNat < s.flen s.fk - 1) :
    s.nextSlot.Phase s.nextSlot.st := by
  obtain ⟨hr, hf, hn, hpolls, -⟩ := hp
  have hslot : (s.si + 1).toNat < s.flen s.fk := by
    have := s.flen_lt s.fk
    bv_omega
  rw [State.nextSlot_st, hst]
  exact ⟨hr, hf, hn, hpolls, hslot⟩

/-- R127: a whole frame closes; a poll is counted, and was below LIMIT before. -/
theorem State.phase_closeFrame {s : State} (hl : s.build.Legal) (hp : s.Phase .xfer) :
    (s.frameEffect s.fk).closeFrame.Phase .gap := by
  obtain ⟨hr, hf, hn, hpolls, -⟩ := hp
  have hcount : (1 : Word) ≤ s.build.csGap.setWidth 32 ∧ s.build.csGap.setWidth 32 ≤ s.build.csGap.setWidth 32 :=
    ⟨one_le_csGap hl, BitVec.le_refl _⟩
  rcases s.frameEffect_cases s.fk with ⟨-, e⟩ | ⟨hk, e⟩ | ⟨-, -, e⟩ <;> rw [e]
  · exact ⟨hr, hf, .inl hn, BitVec.le_of_lt hpolls, fun _ => hpolls, hcount⟩
  · have hcounted : s.polls + 1 ≤ s.limit := by bv_omega
    exact ⟨hr, hf, .inl hn, hcounted, fun h => absurd hk h, hcount⟩
  · exact ⟨hr, hf, .inl hn, BitVec.le_of_lt hpolls, fun _ => hpolls, hcount⟩

/-- R128: a failed exchange closes the frame too. -/
theorem State.phase_raiseBusFault {s : State} (hl : s.build.Legal) (hp : s.Phase .xfer) : s.raiseBusFault.Phase .gap := by
  obtain ⟨hr, hf, -, hpolls, -⟩ := hp
  exact ⟨hr, hf, .inr ⟨rfl, rfl⟩, BitVec.le_of_lt hpolls, fun _ => hpolls, one_le_csGap hl, BitVec.le_refl _⟩

/-- R125 to R128: XFER. `State.Phase` speaks neither of STAGE nor of SR, which are all that a capture writes (R98), so one
argument serves the three ways of `State.capture_cases`. -/
theorem State.phase_xferEdge {s : State} (hl : s.build.Legal) (hst : s.st = .xfer) (hp : s.Phase .xfer) (x : CycleIn) :
    (s.xferEdge x).Phase (s.xferEdge x).st := by
  have hc := s.capture_cases s.fk s.si.toNat x.xferRx
  rcases s.xferEdge_cases x with ⟨-, e⟩ | ⟨-, -, e⟩ | ⟨-, -, hs, e⟩ | ⟨-, -, -, e⟩ <;> rw [e]
  · rw [hst]; exact hp
  · exact State.phase_raiseBusFault hl hp
  · rcases hc with ⟨-, -, -, c⟩ | ⟨-, -, c⟩ | c <;> rw [c] <;> exact State.phase_nextSlot hst hp hs
  · rcases hc with ⟨-, -, -, c⟩ | ⟨-, -, c⟩ | c <;> rw [c] <;> exact State.phase_closeFrame hl hp

/-- R134: the poll decision. Another poll is made below LIMIT only. -/
theorem State.phase_pollDecision {s : State} (hr : s.Unreported) (hf : s.OwnFrame) (hn : s.Unfailed) (hpolls : s.polls ≤ s.limit)
    (hk : s.fk = .poll) : s.pollDecision.Phase s.pollDecision.st := by
  rcases s.pollDecision_cases with ⟨-, e⟩ | ⟨-, -, e⟩ | ⟨-, hbelow, -, e⟩ | ⟨-, hbelow, hgap, e⟩ <;> rw [e]
  · exact ⟨hr, hpolls⟩
  · exact ⟨hr, hpolls⟩
  · exact ⟨hr, hk ▸ hf, hn, BitVec.not_le.mp hbelow⟩
  · have hload : (1 : Word) ≤ s.pollGap.setWidth 32 := by bv_omega
    exact ⟨hr, hf, hn, BitVec.not_le.mp hbelow, hk, hload, BitVec.le_refl _⟩

/-- R130: leaving GAP. -/
theorem State.phase_afterGap {s : State} (hp : s.Phase .gap) : s.afterGap.Phase s.afterGap.st := by
  obtain ⟨hr, ⟨hv, hf⟩, hfail, hpolls, hbelow, -⟩ := hp
  have unfailed (ha : s.abort = false) : s.Unfailed := hfail.resolve_right fun ⟨ha', _⟩ => by simp [ha] at ha'
  rcases s.afterGap_cases with ⟨-, e⟩ | ⟨ha, hk, ho, e⟩ | ⟨-, -, -, -, e⟩ | ⟨ha, hk, -, hd, e⟩ | ⟨ha, hk, -, e⟩ | ⟨ha, hk, e⟩ |
    ⟨-, -, -, -, e⟩ <;> rw [e]
  · exact ⟨hr, hpolls⟩
  · exact ⟨hr, ⟨hv, .inr (.inl ⟨ho, .inr (.inl rfl)⟩)⟩, unfailed ha, hbelow (by simp [hk])⟩
  · exact ⟨hr, hpolls⟩
  · have hload : (1 : Word) ≤ s.wdelay := by bv_omega
    exact ⟨hr, ⟨hv, hf⟩, unfailed ha, hpolls, hk, hload, BitVec.le_refl _⟩
  · exact ⟨hr, ⟨hv, frameOf_poll_of_write (hk ▸ hf)⟩, unfailed ha, hbelow (by simp [hk])⟩
  · exact State.phase_pollDecision hr ⟨hv, hf⟩ (unfailed ha) hpolls hk
  · exact ⟨hr, hpolls⟩

/-- R129: GAP. -/
theorem State.phase_gapEdge {s : State} (hst : s.st = .gap) (hp : s.Phase .gap) : s.gapEdge.Phase s.gapEdge.st := by
  unfold State.gapEdge
  split
  case isTrue hc =>
    obtain ⟨hr, hf, hfail, hpolls, hbelow, hcount⟩ := hp
    rw [State.countDown_st, hst]
    exact ⟨hr, hf, hfail, hpolls, hbelow, hcount.countDown hc⟩
  case isFalse => exact State.phase_afterGap hp

/-- R132: DELAY. -/
theorem State.phase_delayEdge {s : State} (hst : s.st = .delay) (hp : s.Phase .delay) : s.delayEdge.Phase s.delayEdge.st := by
  obtain ⟨hr, hf, hn, hpolls, hk, hcount⟩ := hp
  unfold State.delayEdge
  split
  case isTrue hc =>
    rw [State.countDown_st, hst]
    exact ⟨hr, hf, hn, hpolls, hk, hcount.countDown hc⟩
  case isFalse => exact ⟨hr, hpolls⟩

/-- R133: PGAP. -/
theorem State.phase_pgapEdge {s : State} (hst : s.st = .pgap) (hp : s.Phase .pgap) : s.pgapEdge.Phase s.pgapEdge.st := by
  obtain ⟨hr, hf, hn, hpolls, hk, hcount⟩ := hp
  unfold State.pgapEdge
  split
  case isTrue hc =>
    rw [State.countDown_st, hst]
    exact ⟨hr, hf, hn, hpolls, hk, hcount.countDown hc⟩
  case isFalse => exact ⟨hr, hf, hn, hpolls⟩

/-- Every transition of R141 leads to a state that meets its FSM state's part of the invariant. -/
theorem State.phase_fsmEdge {s : State} (hl : s.build.Legal) (hp : s.Phase s.st) (x : CycleIn) :
    (s.fsmEdge x).Phase (s.fsmEdge x).st := by
  unfold State.fsmEdge
  cases hst : s.st <;> rw [hst] at hp <;> dsimp only
  case idle => exact State.phase_of_idle hst
  case check => exact State.phase_checkEdge hp
  case assert => exact State.phase_assertEdge hp
  case xfer => exact State.phase_xferEdge hl hst hp x
  case gap => exact State.phase_gapEdge hst hp
  case delay => exact State.phase_delayEdge hst hp
  case pgap => exact State.phase_pgapEdge hst hp
  case finish => trivial

/-- The FSM transition keeps the invariant. -/
theorem Inv.fsmEdge {s : State} (h : Inv s) (x : CycleIn) : Inv (s.fsmEdge x) :=
  (inv_iff _).mpr ⟨h.standing.fsmEdge x, State.phase_fsmEdge h.legal h.phase x⟩

/-! ### The host and reset -/

/-- A dropped write keeps the invariant, which does not speak of DROP. -/
theorem Inv.setDrop {s : State} (h : Inv s) : Inv s.setDrop := { h with }

/-- R29: a write of POLLCFG never leaves LIMIT at 0. -/
theorem State.setPollcfg_limit_ne_zero (s : State) (v : Word) : (s.setPollcfg v).limit ≠ 0 := by
  rw [State.setPollcfg_limit]
  split
  case isTrue => decide
  case isFalse hv => exact hv

/-- R121: an accepted command starts with no poll counted, which is below LIMIT. -/
theorem Inv.accept {s : State} (h : Inv s) (w : Word) : Inv (s.accept w) := by
  have hlimit : (0 : BitVec 16) < s.limit := by
    have := h.limitPos
    bv_omega
  obtain ⟨legal, bufWf, bufBelow, stageWf, stageBelow, limitPos⟩ := h.standing
  exact (inv_iff _).mpr ⟨⟨legal, bufWf, bufBelow, stageWf, stageBelow, limitPos⟩, ⟨rfl, rfl⟩, ⟨rfl, rfl⟩, hlimit⟩

/-- The host's access keeps the invariant, in an idle block and in a busy one. -/
theorem Inv.hostEffect {s : State} (h : Inv s) (a : HostAccess) : Inv (s.hostEffect a) := by
  by_cases hst : s.st = .idle
  · obtain ⟨legal, bufWf, bufBelow, stageWf, stageBelow, limitPos⟩ := h.standing
    rcases State.hostEffect_of_idle hst a with e | ⟨w, -, e⟩ | ⟨v, e⟩ | ⟨v, e⟩ | ⟨v, e⟩ | ⟨k, v, e⟩ <;> rw [e]
    · exact h
    · exact h.accept w
    · exact (inv_iff _).mpr ⟨⟨legal, bufWf, bufBelow, stageWf, stageBelow, limitPos⟩, State.phase_of_idle hst⟩
    · exact (inv_iff _).mpr ⟨⟨legal, bufWf, bufBelow, stageWf, stageBelow, limitPos⟩, State.phase_of_idle hst⟩
    · exact (inv_iff _).mpr ⟨⟨legal, bufWf, bufBelow, stageWf, stageBelow, s.setPollcfg_limit_ne_zero v⟩, State.phase_of_idle hst⟩
    · exact (inv_iff _).mpr ⟨⟨legal, State.wf_setBufWord bufWf k v, State.below_setBufWord bufBelow k v, stageWf, stageBelow,
        limitPos⟩, State.phase_of_idle hst⟩
  · rcases State.hostEffect_of_busy hst a with e | e <;> rw [e]
    · exact h
    · exact h.setDrop

/-- R230: reset leaves the block idle, LIMIT at a legal value and the buffers as they were. -/
theorem Inv.resetEdge {s : State} (h : Inv s) : Inv s.resetEdge := by
  obtain ⟨-, -, -, hlimit⟩ := h.legal
  exact (inv_iff _).mpr ⟨⟨h.legal, h.bufWf, h.bufBelow, h.stageWf, h.stageBelow, hlimit⟩, trivial⟩

/-! ### Cycles and steps -/

theorem Inv.edge {s : State} (h : Inv s) (x : CycleIn) : Inv (s.edge x) := by
  cases hr : x.rst with
  | true => rw [State.edge_of_rst hr]; exact h.resetEdge
  | false =>
    by_cases hst : s.st = .idle
    · rw [State.edge_of_idle hr hst]; exact h.hostEffect x.host
    · rw [State.edge_of_busy hr hst]; exact (h.hostEffect x.host).fsmEdge x

/-- Assumption log 3: the invariant does not speak of the log. -/
theorem Inv.cycle {s : State} (h : Inv s) (x : CycleIn) : Inv (s.cycle x) := { h.edge x with }

/-- Assumption log 2: the invariant does not speak of the pending inputs. -/
theorem Inv.withPending {s : State} (h : Inv s) (xs : List CycleIn) : Inv (s.withPending xs) := { h with }

/-- Settles O9: every cycle keeps the invariant, and a step is nothing but cycles. -/
theorem stepKeepsTheInvariant : Obligations.StepKeepsTheInvariant :=
  fun _ _ h hst => step_induct (P := Inv) (fun _ x hu => hu.cycle x) (fun _ xs hu => hu.withPending xs) h hst

end Sys2Proof.Machine
end

/-! SUPPORT. The state and the host port of spec/10_state.md: the fields of the host's words, the register map, what an access is
answered and does, and the cycle it stands in (obligations O6, O10, O12 to O18, O31 and O44). -/

section
namespace Sys2Proof.Machine

/-! ### Fields of a word -/

/-- A field of a word, as a number. -/
theorem extractLsb'_eq_ofNat {n : Nat} (v : BitVec n) (i m : Nat) : v.extractLsb' i m = BitVec.ofNat m (v.toNat / 2 ^ i) := by
  rw [BitVec.extractLsb', Nat.shiftRight_eq_div_pow]

/-- Two fields side by side, as a number. -/
theorem append_eq_ofNat {m n : Nat} (hi : BitVec m) (lo : BitVec n) :
    hi ++ lo = BitVec.ofNat (m + n) (hi.toNat * 2 ^ n + lo.toNat) := by
  apply BitVec.eq_of_toNat_eq
  have hnum : (hi ++ lo).toNat = hi.toNat * 2 ^ n + lo.toNat := by
    rw [BitVec.toNat_append, ← Nat.shiftLeft_add_eq_or_of_lt lo.isLt, Nat.shiftLeft_eq]
  rw [BitVec.toNat_ofNat, ← hnum, Nat.mod_eq_of_lt (hi ++ lo).isLt]

/-! ### The registers -/

/-- R27: CFG is the policy's bit. -/
theorem State.readReg_cfg (s : State) : s.readReg .cfg = if s.policy = .pollStatus then 1 else 0 := by
  unfold State.readReg
  cases s.policy <;> rfl

/-- R29: POLLCFG is GAP above LIMIT. -/
theorem State.readReg_pollcfg (s : State) :
    s.readReg .pollcfg = BitVec.ofNat 32 (s.pollGap.toNat * 2 ^ 16 + s.limit.toNat) := append_eq_ofNat _ _

/-- R36: POLLCNT is `polls`, extended with zeros. -/
theorem State.readReg_pollcnt (s : State) : s.readReg .pollcnt = s.polls.setWidth 32 := by
  rw [BitVec.setWidth_eq_append (by decide)]; rfl

/-- R63: lane `j` of a BUF word is the byte that BUF shows at `4k + j`. -/
theorem State.lane_bufWord (s : State) (k : Nat) {j : Nat} (hj : j < 4) :
    (s.bufWord k).extractLsb' (8 * j) 8 = s.bufLane (4 * k + j) := by
  unfold State.bufWord
  match j, hj with
  | 0, _ =>
    simp (disch := decide) only [BitVec.extractLsb'_append_eq_of_add_le, BitVec.extractLsb'_eq_self, Nat.mul_zero, Nat.add_zero]
  | 1, _ =>
    simp (disch := decide) only [BitVec.extractLsb'_append_eq_of_le, BitVec.extractLsb'_append_eq_of_add_le,
      BitVec.extractLsb'_eq_self, Nat.mul_one, Nat.sub_self]
  | 2, _ =>
    simp (disch := decide) only [BitVec.extractLsb'_append_eq_of_le, BitVec.extractLsb'_append_eq_of_add_le,
      BitVec.extractLsb'_eq_self, Nat.reduceMul, Nat.reduceSub]
  | 3, _ =>
    simp (disch := decide) only [BitVec.extractLsb'_append_eq_of_le, BitVec.extractLsb'_eq_self, Nat.reduceMul, Nat.reduceSub]

theorem Policy.ofBit_eq (b : Bool) : Policy.ofBit b = if b then .pollStatus else .fixedDelay := by
  cases b <;> rfl

/-- R29: a write of POLLCFG, its fields as numbers. -/
theorem State.setPollcfg_eq (s : State) (v : Word) :
    s.setPollcfg v =
      { s with
        limit := if v.toNat % 2 ^ 16 = 0 then 1 else BitVec.ofNat 16 v.toNat
        pollGap := BitVec.ofNat 16 (v.toNat / 2 ^ 16) } := by
  have hlow : v.extractLsb' 0 16 = BitVec.ofNat 16 v.toNat := by
    rw [extractLsb'_eq_ofNat, Nat.pow_zero, Nat.div_one]
  have hzero : BitVec.ofNat 16 v.toNat = 0 ↔ v.toNat % 2 ^ 16 = 0 := by
    rw [← BitVec.toNat_inj, BitVec.toNat_ofNat]; rfl
  simp only [State.setPollcfg, hlow, hzero, extractLsb'_eq_ofNat v 16 16]

/-- R37, R63: one byte of BUF after a write of BUF word `k`. -/
theorem State.read_setBufWord {s : State} (h : s.buf.wf) (k : Nat) (v : Word) (i : Nat) :
    (s.setBufWord k v).buf.read i =
      if i / 4 = k ∧ i < s.build.bufBytes then v.extractLsb' (8 * (i % 4)) 8 else s.buf.read i := by
  have h0 := Memory.wf_writeBelow h s.build.bufBytes (4 * k) (v.extractLsb' 0 8)
  have h1 := Memory.wf_writeBelow h0 s.build.bufBytes (4 * k + 1) (v.extractLsb' 8 8)
  have h2 := Memory.wf_writeBelow h1 s.build.bufBytes (4 * k + 2) (v.extractLsb' 16 8)
  unfold State.setBufWord
  rw [Memory.read_writeBelow h2, Memory.read_writeBelow h1, Memory.read_writeBelow h0, Memory.read_writeBelow h]
  by_cases hk : i / 4 = k
  · obtain ⟨j, hj, rfl⟩ : ∃ j < 4, i = 4 * k + j := ⟨i % 4, by omega, by omega⟩
    rw [show (4 * k + j) % 4 = j by omega]
    match j, hj with
    | 0, _ => simp
    | 1, _ => simp [hk]
    | 2, _ => simp [hk]
    | 3, _ => simp [hk]
  · rw [if_neg (by omega), if_neg (by omega), if_neg (by omega), if_neg (by omega), if_neg (by tauto)]

/-! ### The register map -/

/-- R31: a 32-bit access reaches what its offset names. -/
theorem hostTarget_four (b : Build) (off : BitVec 9) : hostTarget b off 4 = hostReg b off := rfl

/-- R30, R31: the offsets that name no register are those that are not aligned, those between POLLCNT and BUF, and those behind
the last BUF word. -/
theorem hostReg_eq_none_iff (b : Build) (off : BitVec 9) :
    hostReg b off = none ↔ off.toNat % 4 ≠ 0 ∨ (0x018 ≤ off.toNat ∧ off.toNat < 0x100) ∨
      0x100 + 4 * ((b.bufBytes + 3) / 4) ≤ off.toNat := by
  unfold hostReg
  split_ifs with hmod
  case pos => simp [hmod]
  all_goals
    simp only [true_iff, false_iff]
    bv_omega

/-- R31: the accesses that reach no register. -/
theorem hostTarget_eq_none_iff (b : Build) (off : BitVec 9) (size : Nat) :
    hostTarget b off size = none ↔ size ≠ 4 ∨ off.toNat % 4 ≠ 0 ∨ (0x018 ≤ off.toNat ∧ off.toNat < 0x100) ∨
      0x100 + 4 * ((b.bufBytes + 3) / 4) ≤ off.toNat := by
  by_cases hs : size = 4
  · rw [hs, hostTarget_four, hostReg_eq_none_iff]; simp
  · simp [hostTarget, hs]

/-- The offset of a BUF word is the one R30 gives it, as long as it fits the 9 bits of an offset. -/
theorem toNat_bufOffset {k : Nat} (hk : k < 64) : (bufOffset k).toNat = 0x100 + 4 * k := by
  rw [bufOffset, BitVec.toNat_ofNat]; omega

/-- R30: the words of BUF lie from 0x100 on. -/
theorem hostReg_bufOffset {b : Build} {k : Nat} (hk : k < 64) (hb : k < (b.bufBytes + 3) / 4) :
    hostReg b (bufOffset k) = some (.bufWord k) := by
  have ht := toNat_bufOffset hk
  have hne (c : BitVec 9) (hc : c.toNat < 0x100) : bufOffset k ≠ c := by
    rintro rfl; omega
  have hword : ((bufOffset k).toNat - 0x100) / 4 = k := by omega
  unfold hostReg
  rw [if_neg (by omega), if_neg (hne _ (by decide)), if_neg (hne _ (by decide)), if_neg (hne _ (by decide)),
    if_neg (hne _ (by decide)), if_neg (hne _ (by decide)), if_neg (hne _ (by decide)), hword, if_pos ⟨by omega, hb⟩]

/-! ### The response -/

/-- R32: a read of a mapped register is answered with its value. -/
theorem State.respond_read {s : State} {off : BitVec 9} {size : Nat} {r : HostReg}
    (h : hostTarget s.build off size = some r) : s.respond (.read off size) = some (.data (s.readReg r)) := by
  simp [State.respond, h]

/-- R33: a write of a mapped register completes, whatever becomes of it. -/
theorem State.respond_write {s : State} {off : BitVec 9} {size : Nat} {r : HostReg} (v : Word)
    (h : hostTarget s.build off size = some r) : s.respond (.write off size v) = some .written := by
  simp [State.respond, h]

/-- R31: a read is turned away exactly when it reaches no register. -/
theorem State.respond_read_eq_accessError_iff (s : State) (off : BitVec 9) (size : Nat) :
    s.respond (.read off size) = some .accessError ↔ hostTarget s.build off size = none := by
  cases h : hostTarget s.build off size <;> simp [State.respond, h]

/-- R31: a write is turned away exactly when it reaches no register. -/
theorem State.respond_write_eq_accessError_iff (s : State) (off : BitVec 9) (size : Nat) (v : Word) :
    s.respond (.write off size v) = some .accessError ↔ hostTarget s.build off size = none := by
  cases h : hostTarget s.build off size <;> simp [State.respond, h]

/-! ### The effect of an access -/

/-- R31: a write that reaches no register does nothing. -/
theorem State.hostEffect_write_of_none {s : State} {off : BitVec 9} {size : Nat} (v : Word)
    (h : hostTarget s.build off size = none) : s.hostEffect (.write off size v) = s := by
  simp [State.hostEffect, h]

/-- R33: an idle block performs a write. -/
theorem State.hostEffect_write_of_idle {s : State} {off : BitVec 9} {size : Nat} {r : HostReg} (v : Word) (hst : s.st = .idle)
    (h : hostTarget s.build off size = some r) : s.hostEffect (.write off size v) = s.writeReg v r := by
  simp [State.hostEffect, h, hst]

/-- R33: a busy block drops a write. -/
theorem State.hostEffect_write_of_busy {s : State} {off : BitVec 9} {size : Nat} {r : HostReg} (v : Word) (hst : s.st ≠ .idle)
    (h : hostTarget s.build off size = some r) : s.hostEffect (.write off size v) = s.dropWrite r := by
  simp [State.hostEffect, h, hst]

/-- R31: an access that is turned away does nothing. -/
theorem State.hostEffect_of_accessError {s : State} {a : HostAccess} (h : s.respond a = some .accessError) :
    s.hostEffect a = s := by
  cases a with
  | nothing => rfl
  | read off size => rfl
  | write off size v => exact State.hostEffect_write_of_none v ((s.respond_write_eq_accessError_iff off size v).mp h)

/-- R33: a write of STAT or POLLCNT does nothing, in an idle block and in a busy one. -/
theorem State.hostEffect_write_of_readOnly {s : State} {off : BitVec 9} {size : Nat} {r : HostReg} (v : Word)
    (h : hostTarget s.build off size = some r) (hr : r = .stat ∨ r = .pollcnt) : s.hostEffect (.write off size v) = s := by
  by_cases hst : s.st = .idle
  · rw [State.hostEffect_write_of_idle v hst h]
    rcases hr with rfl | rfl <;> rfl
  · rw [State.hostEffect_write_of_busy v hst h]
    rcases hr with rfl | rfl <;> rfl

/-- R33: a busy block drops a write of any other register with DROP set. -/
theorem State.dropWrite_of_ne {r : HostReg} (hs : r ≠ .stat) (hp : r ≠ .pollcnt) (s : State) : s.dropWrite r = s.setDrop := by
  cases r with
  | stat => exact absurd rfl hs
  | pollcnt => exact absurd rfl hp
  | cmd => rfl
  | cfg => rfl
  | wdelay => rfl
  | pollcfg => rfl
  | bufWord k => rfl

/-! ### DROP and the FSM -/

/-- No transition reads the host's access. -/
theorem State.fsmEdge_withHost (s : State) (x : CycleIn) (a : HostAccess) : s.fsmEdge { x with host := a } = s.fsmEdge x := rfl

theorem State.checkEdge_setDrop (s : State) : s.setDrop.checkEdge = s.checkEdge.setDrop := by
  unfold State.checkEdge; rw [apply_ite State.setDrop]; rfl

theorem State.capture_setDrop (s : State) (fk : FrameKind) (k : Nat) (rx : Byte) :
    s.setDrop.capture fk k rx = (s.capture fk k rx).setDrop := by
  cases fk <;> simp only [State.capture, apply_ite State.setDrop] <;> rfl

theorem State.frameEffect_setDrop (s : State) (fk : FrameKind) : s.setDrop.frameEffect fk = (s.frameEffect fk).setDrop := by
  cases fk <;> rfl

theorem State.xferEdge_setDrop (s : State) (x : CycleIn) : s.setDrop.xferEdge x = (s.xferEdge x).setDrop := by
  simp only [State.xferEdge, State.setDrop_fk, State.setDrop_si, State.capture_setDrop, State.frameEffect_setDrop,
    apply_ite State.setDrop]
  rfl

theorem State.startWait_setDrop (s : State) : s.setDrop.startWait = s.startWait.setDrop := by
  unfold State.startWait
  cases hp : s.policy with
  | fixedDelay => simp only [State.setDrop_policy, hp, apply_ite State.setDrop]; rfl
  | pollStatus => simp only [State.setDrop_policy, hp]; rfl

theorem State.pollDecision_setDrop (s : State) : s.setDrop.pollDecision = s.pollDecision.setDrop := by
  simp only [State.pollDecision, apply_ite State.setDrop]; rfl

theorem State.afterGap_setDrop (s : State) : s.setDrop.afterGap = s.afterGap.setDrop := by
  simp only [State.afterGap, State.startWait_setDrop, State.pollDecision_setDrop, apply_ite State.setDrop]; rfl

/-- R33: no transition reads or writes DROP. -/
theorem State.fsmEdge_setDrop (s : State) (x : CycleIn) : s.setDrop.fsmEdge x = (s.fsmEdge x).setDrop := by
  unfold State.fsmEdge
  rw [State.setDrop_st]
  cases s.st with
  | idle => rfl
  | check => exact s.checkEdge_setDrop
  | assert => rfl
  | xfer => exact s.xferEdge_setDrop x
  | gap => simp only [State.gapEdge, State.afterGap_setDrop, apply_ite State.setDrop]; rfl
  | delay => simp only [State.delayEdge, apply_ite State.setDrop]; rfl
  | pgap => simp only [State.pgapEdge, apply_ite State.setDrop]; rfl
  | finish => rfl

/-! ### The edge of a cycle with a host access -/

/-- A cycle of an idle block in which the host makes the access `a`. -/
theorem State.edge_withHost_of_idle {s : State} {x : CycleIn} (hr : x.rst = false) (hst : s.st = .idle) (a : HostAccess) :
    s.edge { x with host := a } = s.hostEffect a :=
  State.edge_of_idle (x := { x with host := a }) hr hst

/-- A cycle of a busy block in which the host makes the access `a`. -/
theorem State.edge_withHost_of_busy {s : State} {x : CycleIn} (hr : x.rst = false) (hst : s.st ≠ .idle) (a : HostAccess) :
    s.edge { x with host := a } = (s.hostEffect a).fsmEdge x := by
  rw [State.edge_of_busy (x := { x with host := a }) hr hst, State.fsmEdge_withHost]

/-- An access that does nothing leaves the edge of a cycle without it, in a reset cycle too. -/
theorem State.edge_of_hostEffect_eq {s : State} {x : CycleIn} (h : s.hostEffect x.host = s) :
    s.edge x = s.edge { x with host := .nothing } := by
  by_cases hr : x.rst = true
  · rw [State.edge_of_rst hr, State.edge_of_rst (x := { x with host := .nothing }) hr]
  · rw [Bool.not_eq_true] at hr
    by_cases hst : s.st = .idle
    · rw [State.edge_of_idle hr hst, State.edge_withHost_of_idle hr hst, h, State.hostEffect_nothing]
    · rw [State.edge_of_busy hr hst, State.edge_withHost_of_busy hr hst, h, State.hostEffect_nothing]

/-- R33: an idle block performs the write of its cycle. -/
theorem State.edge_write_of_idle {s : State} {x : CycleIn} {off : BitVec 9} {size : Nat} {v : Word} {r : HostReg}
    (hr : x.rst = false) (hst : s.st = .idle) (hx : x.host = .write off size v) (h : hostTarget s.build off size = some r) :
    s.edge x = s.writeReg v r := by
  rw [State.edge_of_idle hr hst, hx, State.hostEffect_write_of_idle v hst h]

/-- R33: a dropped write sets DROP, and the cycle's own transition goes on. -/
theorem State.edge_write_of_busy {s : State} {x : CycleIn} {off : BitVec 9} {size : Nat} {v : Word} {r : HostReg}
    (hr : x.rst = false) (hst : s.st ≠ .idle) (hx : x.host = .write off size v) (h : hostTarget s.build off size = some r)
    (hs : r ≠ .stat) (hp : r ≠ .pollcnt) : s.edge x = (s.edge { x with host := .nothing }).setDrop := by
  rw [State.edge_of_busy hr hst, hx, State.hostEffect_write_of_busy v hst h, State.dropWrite_of_ne hs hp,
    State.fsmEdge_setDrop, State.edge_withHost_of_busy hr hst, State.hostEffect_nothing]

/-! ### Reset and the step -/

/-- R44: the state that a legal build leaves reset in meets the invariant. -/
theorem inv_initial {b : Build} (h : b.Legal) : Inv (State.initial b) := by
  have ⟨_, _, _, hlimit⟩ := h
  have hempty : Memory.Below b.bufBytes [] := fun _ hc => absurd hc List.not_mem_nil
  exact inv_of_standing_of_phase ⟨h, Memory.wf_nil, hempty, Memory.wf_nil, hempty, hlimit⟩ trivial

/-- R34: the step in whose cycle the host writes a command's word. -/
theorem step_of_commandWord {s : State} {w : Word} {i : Instr} (hw : s.currentInputs.host.commandWord? = some w)
    (hi : decode w = .ok i) : step s = exec i s := by
  simp only [step, hw, hi]

/-- A word of the opcode table is decoded as the command word it stands for. -/
theorem decode_of_decodeTableWord {n w : Nat} {i : Instr} (h : decodeTableWord n w = some i) :
    decode (tableWord n w) = .ok i := by
  unfold decodeTableWord at h
  split at h
  case h_1 j hj => rw [hj, Option.some.inj h]
  case h_2 => cases h

/-! ### The statements about accesses -/

/-- Settles O12: an access is turned away exactly when it reaches no register, and then has no effect. -/
theorem accessErrorChangesNothing : Obligations.AccessErrorChangesNothing := by
  intro s off size v a ha
  refine ⟨?_, fun herr x hx => State.edge_of_hostEffect_eq (hx ▸ State.hostEffect_of_accessError herr)⟩
  rw [← hostTarget_eq_none_iff]
  rcases ha with rfl | rfl
  · exact s.respond_read_eq_accessError_iff off size
  · exact s.respond_write_eq_accessError_iff off size v

/-- Settles O13: the response is the register's value by the definition of the port, and a read has no effect. -/
theorem hostReadHasNoSideEffect : Obligations.HostReadHasNoSideEffect := by
  intro s x off size hx
  refine ⟨fun _ r hr => ?_, State.edge_of_hostEffect_eq (by rw [hx, State.hostEffect_read])⟩
  rw [State.outputs, hx]
  exact State.respond_read hr

/-- Settles O18, by the three ways a write of a mapped register can go. -/
theorem hostWritePerformedOrDropped : Obligations.HostWritePerformedOrDropped := by
  intro s x off v r hrst hx hr
  refine ⟨fun hst => State.edge_write_of_idle hrst hst hx hr,
    fun hst hs hp => State.edge_write_of_busy hrst hst hx hr hs hp,
    fun hro => State.edge_of_hostEffect_eq (hx ▸ State.hostEffect_write_of_readOnly v hr hro), ?_⟩
  rw [State.outputs, hx]
  exact State.respond_write v hr

/-- Settles O14, register by register. -/
theorem registerMapReads : Obligations.RegisterMapReads := by
  intro s
  refine ⟨State.respond_read (r := .cmd) rfl, State.respond_read (r := .stat) rfl, ?cfg, State.respond_read (r := .wdelay) rfl,
    ?pollcfg, ?pollcnt, fun k hk h64 => ?bufWord⟩
  case cfg => rw [← s.readReg_cfg]; exact State.respond_read rfl
  case pollcfg => rw [← s.readReg_pollcfg]; exact State.respond_read rfl
  case pollcnt => rw [← s.readReg_pollcnt]; exact State.respond_read rfl
  case bufWord => exact ⟨_, State.respond_read (hostReg_bufOffset h64 hk), fun _ hj => s.lane_bufWord k hj⟩

/-- Settles O16: an idle block performs the write, whose effect is on one register. -/
theorem idleConfigurationWrites : Obligations.IdleConfigurationWrites := by
  intro s x v hst hr
  refine ⟨fun hx => ?_, fun hx => State.edge_write_of_idle (r := .wdelay) hr hst hx rfl, fun hx => ?_⟩
  · rw [State.edge_write_of_idle (r := .cfg) hr hst hx rfl, State.writeReg, State.setCfg, Policy.ofBit_eq]
  · rw [State.edge_write_of_idle (r := .pollcfg) hr hst hx rfl, State.writeReg, State.setPollcfg_eq]

/-- Settles O17: an idle block performs the write, whose effect is on the bytes of one BUF word. -/
theorem idleBufWrite : Obligations.IdleBufWrite := by
  intro s x k v hst hr hwf h64 hk hx
  have hedge : s.edge x = s.setBufWord k v := State.edge_write_of_idle hr hst hx (hostReg_bufOffset h64 hk)
  rw [hedge]
  exact ⟨State.read_setBufWord hwf k v, State.wf_setBufWord hwf k v, rfl⟩

/-- Settles O44: the command's word is a write of CMD, which a busy block drops. -/
theorem commandWhileBusyIsDropped : Obligations.CommandWhileBusyIsDropped := by
  intro s i x rest hst hp hrst
  have hin : s.currentInputs = x := by simp [State.currentInputs, hp]
  have hedge : s.edge { x with host := hw 0x000 (encode i) } = (s.edge { x with host := .nothing }).setDrop :=
    State.edge_write_of_busy (r := .cmd) hrst hst rfl rfl nofun nofun
  have hcmd : (s.edge { x with host := .nothing }).lastCmd = s.lastCmd :=
    (State.edge_config_of_busy (x := { x with host := .nothing }) hrst hst).1
  have hissue : exec i s = .next ((s.cycle { x with host := hw 0x000 (encode i) }).withPending rest) := by
    rw [exec_eq_issue, State.issue_of_busy hst, hin, hp, List.tail_cons]
  refine ⟨_, hissue, ?_, ?_, ?_⟩
  · rw [State.withPending_drop, State.cycle_drop, hedge, State.setDrop_drop]
  · rw [State.withPending_lastCmd, State.cycle_lastCmd, hedge, State.setDrop_lastCmd, hcmd]
  · simp only [State.withPending, State.cycle, hedge, State.setDrop, State.edge_log]

/-! ### The statements about the state, its outputs and the step -/

/-- Settles O6: what `step` decodes is the word of the current cycle's write. -/
theorem stepRunsTheDecodedCommand : Obligations.StepRunsTheDecodedCommand := by
  refine ⟨fun s x rest w i hp hx hi => step_of_commandWord ?_ hi,
    fun s w i hi => step_of_commandWord rfl (decode_of_decodeTableWord hi)⟩
  simp [State.currentInputs, hp, hx, HostAccess.commandWord?]

/-- Settles O10: the reference build is legal. -/
theorem resetMeetsTheInvariant : Obligations.ResetMeetsTheInvariant := inv_initial (by decide)

/-- Settles O15: the three fields of several bits are cut out of the word's parts, the others read bit by bit. -/
theorem statWordFields : Obligations.StatWordFields := by
  intro s v
  refine ⟨?busy, ?done, ?result, ?drop, ?csAct, ?holdN, ?reserved7, ?sr, ?wip, ?reserved17⟩
  case result | sr | reserved17 =>
    simp (disch := decide) only [v, State.statWord, BitVec.extractLsb'_append_eq_of_le,
      BitVec.extractLsb'_append_eq_of_add_le, Nat.reduceSub, BitVec.extractLsb'_eq_self, BitVec.ofNat_eq_ofNat]
  all_goals
    simp only [v, State.statWord, BitVec.getLsbD_append]
    simp [State.busy, State.holdN, writeInProgress]

/-- Settles O31: chip-select FSM state by FSM state, hold and the request by definition. -/
theorem outputsAreFunctionsOfTheState : Obligations.OutputsAreFunctionsOfTheState := by
  intro s x
  refine ⟨?_, rfl, decide_eq_true_iff⟩
  simp only [State.outputs, State.csN]
  cases s.st <;> simp

end Sys2Proof.Machine
end

/-! SUPPORT. The command word and its assembler in spec/30_encoding.md (obligations O1 to O5). -/

section
namespace Sys2Proof

/-! ### The command word -/

/-- R90: a command word as a number. -/
theorem commandWord_eq_ofNat (arg : Byte) (addr : Addr) (opc : Byte) :
    commandWord arg addr opc = BitVec.ofNat 32 (arg.toNat * 2 ^ 24 + addr.toNat * 2 ^ 8 + opc.toNat) := by
  unfold commandWord
  rw [Machine.append_eq_ofNat, Machine.append_eq_ofNat, BitVec.toNat_ofNat]
  refine congrArg (BitVec.ofNat 32) ?_
  omega

/-- R90: the fields of a word make it up. -/
theorem commandWord_fields (w : Word) : commandWord (argField w) (addrField w) (opcField w) = w := by
  rw [commandWord_eq_ofNat, argField, addrField, opcField]
  apply BitVec.eq_of_toNat_eq
  simp only [BitVec.toNat_ofNat, BitVec.extractLsb'_toNat, Nat.shiftRight_eq_div_pow]
  omega

/-- R92: LEN, as a number, is what the field holds. -/
theorem commandWord_len_fields (w : Word) :
    commandWord (BitVec.ofNat 8 (argField w).toNat) (addrField w) (opcField w) = w := by
  rw [BitVec.ofNat_toNat, BitVec.setWidth_eq, commandWord_fields]

/-! ### The decoder, code by code -/

theorem decode_of_opcRead {w : Word} (h : opcField w = opcRead) :
    decode w = .ok (.read (addrField w) (argField w).toNat) := by
  simp [decode, h]

theorem decode_of_opcWrite {w : Word} (h : opcField w = opcWrite) :
    decode w = .ok (.write (addrField w) (argField w).toNat) := by
  rw [decode, h]; rfl

theorem decode_of_opcWren {w : Word} (h : opcField w = opcWren) : decode w = .ok (.wren (addrField w) (argField w)) := by
  rw [decode, h]; rfl

theorem decode_of_opcWrdi {w : Word} (h : opcField w = opcWrdi) : decode w = .ok (.wrdi (addrField w) (argField w)) := by
  rw [decode, h]; rfl

theorem decode_of_opcRdsr {w : Word} (h : opcField w = opcRdsr) : decode w = .ok (.rdsr (addrField w) (argField w)) := by
  rw [decode, h]; rfl

theorem decode_of_opcWrsr {w : Word} (h : opcField w = opcWrsr) : decode w = .ok (.wrsr (argField w) (addrField w)) := by
  rw [decode, h]; rfl

/-- R94: the reserved codes are those at 0 and above WREN's. -/
theorem decode_of_reserved {w : Word} (h : opcField w = 0 ∨ 0x07 ≤ opcField w) :
    decode w = .error (.reservedOpcode (opcField w)) := by
  have hne (c : Byte) (hc : c ≠ 0 ∧ c < 0x07) : opcField w ≠ c := by bv_omega
  unfold decode
  rw [if_neg (hne _ (by decide)), if_neg (hne _ (by decide)), if_neg (hne _ (by decide)), if_neg (hne _ (by decide)),
    if_neg (hne _ (by decide)), if_neg (hne _ (by decide))]

/-- Settles O1: the fields of a command's word are its operands, and the decoder reads the fields. -/
theorem decodeOfEncodeIsTheCommand : Obligations.DecodeOfEncodeIsTheCommand := by
  intro i hi
  cases i with
  | read addr len =>
    obtain ⟨hopc, haddr, harg⟩ := Laws.EncodedFields.read addr len
    have hlen : len % 256 = len := Nat.mod_eq_of_lt (Nat.lt_succ_of_le hi)
    rw [decode_of_opcRead hopc, haddr, harg, BitVec.toNat_ofNat, hlen]
  | write addr len =>
    obtain ⟨hopc, haddr, harg⟩ := Laws.EncodedFields.write addr len
    have hlen : len % 256 = len := Nat.mod_eq_of_lt (Nat.lt_succ_of_le hi)
    rw [decode_of_opcWrite hopc, haddr, harg, BitVec.toNat_ofNat, hlen]
  | wren a b =>
    obtain ⟨hopc, haddr, harg⟩ := Laws.EncodedFields.wren a b
    rw [decode_of_opcWren hopc, haddr, harg]
  | wrdi a b =>
    obtain ⟨hopc, haddr, harg⟩ := Laws.EncodedFields.wrdi a b
    rw [decode_of_opcWrdi hopc, haddr, harg]
  | rdsr a b =>
    obtain ⟨hopc, haddr, harg⟩ := Laws.EncodedFields.rdsr a b
    rw [decode_of_opcRdsr hopc, haddr, harg]
  | wrsr value a =>
    obtain ⟨hopc, haddr, harg⟩ := Laws.EncodedFields.wrsr value a
    rw [decode_of_opcWrsr hopc, haddr, harg]

/-- Settles O2: the word is made up of the fields that the decoder has read, one case for each code. -/
theorem encodeOfDecodeIsTheWord : Obligations.EncodeOfDecodeIsTheWord := by
  intro w i h
  have hlen : (argField w).toNat ≤ 0xFF := Nat.le_of_lt_succ (argField w).isLt
  unfold decode at h
  split_ifs at h with hread hwrite hwren hwrdi hrdsr hwrsr <;> cases h
  · exact ⟨hlen, by rw [encode, ← hread, commandWord_len_fields]⟩
  · exact ⟨hlen, by rw [encode, ← hwrite, commandWord_len_fields]⟩
  · exact ⟨trivial, by rw [encode, ← hwren, commandWord_fields]⟩
  · exact ⟨trivial, by rw [encode, ← hwrdi, commandWord_fields]⟩
  · exact ⟨trivial, by rw [encode, ← hrdsr, commandWord_fields]⟩
  · exact ⟨trivial, by rw [encode, ← hwrsr, commandWord_fields]⟩

/-- Settles O3: the decoder, code by code. -/
theorem opcodeFieldSelectsTheCommand : Obligations.OpcodeFieldSelectsTheCommand :=
  fun _ => ⟨decode_of_opcRead, decode_of_opcWrite, decode_of_opcWren, decode_of_opcWrdi, decode_of_opcRdsr,
    decode_of_opcWrsr, decode_of_reserved⟩

/-- Settles O4: the decoder on seven closed words. -/
theorem sampleWordsDecode : Obligations.SampleWordsDecode := by
  unfold Obligations.SampleWordsDecode
  decide

end Sys2Proof

/-! ### The assembler -/

namespace Sys2Proof.Machine

/-- R99: an operand is accepted exactly up to its bound. -/
theorem operand_of_numberValue {bound v : Nat} {cs : List Char} (h : numberValue cs = some v) :
    operand bound cs = if v ≤ bound then .ok v else .error .outOfRange := by
  simp only [operand, h]; rfl

/-- R99: the word of a READ or WRITE, as a number, for operands in range. -/
theorem commandWord_operands {a l : Nat} (ha : a ≤ 0xFFFF) (hl : l ≤ 0xFF) (opc : Byte) :
    commandWord (BitVec.ofNat 8 l) (BitVec.ofNat 16 a) opc = BitVec.ofNat 32 (l * 2 ^ 24 + a * 2 ^ 8 + opc.toNat) := by
  rw [commandWord_eq_ofNat, BitVec.toNat_ofNat, BitVec.toNat_ofNat, Nat.mod_eq_of_lt (by omega), Nat.mod_eq_of_lt (by omega)]

/-- R99: a line with an address and a length, of a mnemonic for the commands that `make` makes. -/
theorem assemble_addr_len {cs ls : List Char} {a l : Nat} (ha : numberValue cs = some a) (hl : numberValue ls = some l)
    (make : Addr → Nat → Instr) (opc : Byte)
    (hmake : ∀ addr len, encode (make addr len) = commandWord (BitVec.ofNat 8 len) addr opc) :
    (do return encode (make (BitVec.ofNat 16 (← operand 0xFFFF cs)) (← operand 0xFF ls)) : Except AsmError Word) =
      if a ≤ 0xFFFF ∧ l ≤ 0xFF then .ok (BitVec.ofNat 32 (l * 2 ^ 24 + a * 2 ^ 8 + opc.toNat)) else .error .outOfRange := by
  rw [operand_of_numberValue ha, operand_of_numberValue hl]
  by_cases hca : a ≤ 0xFFFF
  · by_cases hcl : l ≤ 0xFF
    · rw [if_pos hca, if_pos hcl, if_pos ⟨hca, hcl⟩, ← commandWord_operands hca hcl, ← hmake]; rfl
    · rw [if_pos hca, if_neg hcl, if_neg (fun h : _ ∧ _ => hcl h.2)]; rfl
  · rw [if_neg hca, if_neg (fun h : _ ∧ _ => hca h.1)]; rfl

/-- Settles O5: each mnemonic names its branch of the assembler, and its operands are checked one by one. -/
theorem assemblerRangesAndWords : Obligations.AssemblerRangesAndWords := by
  refine ⟨?read, ?write, ?wrsr, ?wren, ?wrdi, ?rdsr⟩
  case read =>
    intro m cs a ls l hm ha hl
    rw [assemble, hm]
    exact assemble_addr_len ha hl .read opcRead fun _ _ => rfl
  case write =>
    intro m cs a ls l hm ha hl
    rw [assemble, hm]
    exact assemble_addr_len ha hl .write opcWrite fun _ _ => rfl
  case wrsr =>
    intro m vs v hm hv
    have hline : assemble m [vs] = (do return encode (.wrsr (BitVec.ofNat 8 (← operand 0xFF vs)) 0)) := by
      rw [assemble, hm]; rfl
    rw [hline, operand_of_numberValue hv]
    by_cases hc : v ≤ 0xFF
    · have hword := commandWord_operands (Nat.zero_le 0xFFFF) hc opcWrsr
      rw [Nat.zero_mul, Nat.add_zero] at hword
      rw [if_pos hc, if_pos hc]
      exact congrArg Except.ok hword
    · rw [if_neg hc, if_neg hc]; rfl
  case wren | wrdi | rdsr => intro m hm; rw [assemble, hm]; rfl

end Sys2Proof.Machine
end

/-! SUPPORT. The framer and the capture map of spec/30_encoding.md (obligations O25 and O26). -/

section
namespace Sys2Proof.Machine

/-! ### The framer -/

/-- A field of a field is a field of the word. -/
theorem extractLsb'_extractLsb'_eq {n : Nat} (v : BitVec n) {i j l m : Nat} (h : j + m ≤ l) :
    (v.extractLsb' i l).extractLsb' j m = v.extractLsb' (i + j) m := by
  ext k hk
  have hin : j + k < l := by omega
  simp only [BitVec.getElem_extractLsb', BitVec.getLsbD_extractLsb', hin, decide_true, Bool.true_and, Nat.add_assoc]

/-- R91: AH, cut out of the command word. -/
theorem State.addrHigh_curAddr (s : State) : addrHigh s.curAddr = s.lastCmd.extractLsb' 16 8 :=
  extractLsb'_extractLsb'_eq s.lastCmd (by decide)

/-- R91: AL, cut out of the command word. -/
theorem State.addrLow_curAddr (s : State) : addrLow s.curAddr = s.lastCmd.extractLsb' 8 8 :=
  extractLsb'_extractLsb'_eq s.lastCmd (by decide)

/-- R97: below `flen` the framer gives the slot's byte. -/
theorem State.txByte_of_lt {s : State} {fk : FrameKind} {k : Nat} (h : k < s.flen fk) : s.txByte fk k = some (s.slotByte fk k) :=
  if_pos h

/-- R97: the framer is defined exactly below `flen`. -/
theorem State.txByte_eq_none_iff (s : State) (fk : FrameKind) (k : Nat) : s.txByte fk k = none ↔ s.flen fk ≤ k := by
  simp [State.txByte]

/-- R97: the framer reads the command and BUF alone. -/
theorem State.slotByte_congr {s t : State} (hcmd : t.lastCmd = s.lastCmd) (hbuf : t.buf = s.buf) (fk : FrameKind) (k : Nat) :
    t.slotByte fk k = s.slotByte fk k := by
  simp only [State.slotByte, State.curAddr, State.curArg, hcmd, hbuf]

/-- R96: the length of a frame depends on the command alone. -/
theorem State.flen_congr {s t : State} (hcmd : t.lastCmd = s.lastCmd) (fk : FrameKind) : t.flen fk = s.flen fk := by
  simp only [State.flen, State.curArg, hcmd]

theorem State.txByte_congr {s t : State} (hcmd : t.lastCmd = s.lastCmd) (hbuf : t.buf = s.buf) (fk : FrameKind) (k : Nat) :
    t.txByte fk k = s.txByte fk k := by
  simp only [State.txByte, State.flen_congr hcmd, State.slotByte_congr hcmd hbuf]

/-- R97: the data slots of a READ and of a WRITE. -/
theorem State.slotByte_data (s : State) {k : Nat} (hk : 3 ≤ k) :
    s.slotByte .read k = 0x00 ∧ s.slotByte .write k = s.buf.read (k - 3) := by
  obtain ⟨n, rfl⟩ := Nat.exists_eq_add_of_le' hk
  exact ⟨rfl, rfl⟩

/-- Settles O25: the slots of the header one by one, the data slots in general. -/
theorem framerBytes : Obligations.FramerBytes := by
  intro s
  have hread {k : Nat} (hk : k < 3 + s.curArg.toNat) : s.txByte .read k = some (s.slotByte .read k) := State.txByte_of_lt hk
  have hwrite {k : Nat} (hk : k < 3 + s.curArg.toNat) : s.txByte .write k = some (s.slotByte .write k) := State.txByte_of_lt hk
  refine ⟨rfl, rfl, rfl, rfl, rfl, rfl, rfl, rfl, hread (by omega), hwrite (by omega), ?_, ?_, ?_, ?_, fun k hk hlt => ?_,
    fun fk k => ?_, fun _ fk k hcmd hbuf => State.txByte_congr hcmd hbuf fk k, fun _ hst => if_pos hst⟩
  · rw [hread (by omega), ← s.addrHigh_curAddr]; rfl
  · rw [hwrite (by omega), ← s.addrHigh_curAddr]; rfl
  · rw [hread (by omega), ← s.addrLow_curAddr]; rfl
  · rw [hwrite (by omega), ← s.addrLow_curAddr]; rfl
  · obtain ⟨hr, hw⟩ := s.slotByte_data hk
    exact ⟨by rw [hread hlt, hr], by rw [hwrite hlt, hw]⟩
  · rw [s.txByte_eq_none_iff]
    cases fk <;> rfl

/-! ### The capture map -/

/-- R98: a READ's data slot. -/
theorem State.capture_read {s : State} {k : Nat} (rx : Byte) (h : 3 ≤ k ∧ k < 3 + s.curArg.toNat) :
    s.capture .read k rx = s.setStage (k - 3) rx := if_pos h

/-- Settles O26, by what a capture can do. -/
theorem captureMap : Obligations.CaptureMap := by
  intro s fk k rx t
  refine ⟨?stage, ?rest, ?status, ?other⟩
  case stage =>
    rintro rfl hk hlt hwf hlen i
    have hin : k - 3 < s.build.bufBytes := by omega
    simp only [t, State.capture_read rx ⟨hk, hlt⟩, State.read_setStage hwf, hin, and_true]
  case rest =>
    rintro rfl hk hlt
    simp only [t, State.capture_read rx ⟨hk, hlt⟩]
    rfl
  case status => rintro (rfl | rfl) rfl <;> rfl
  case other =>
    intro hread hstatus
    rcases s.capture_cases fk k rx with ⟨hfk, hk, hlt, -⟩ | ⟨hfk, hk, -⟩ | e
    · exact absurd ⟨hfk, hk, hlt⟩ hread
    · exact absurd ⟨hfk, hk⟩ hstatus
    · exact e

end Sys2Proof.Machine
end

/-! SUPPORT. The block over the cycles of a command: what a stretch of the wire shows, a relation for the cycles in which the block is
busy (`State.BusyOver`), and with it the cycles of a wait and of one frame. -/

section
namespace Sys2Proof.Machine

/-! ### The environment's fields -/

/-- The state with other pending cycles and another log, which are the model's own (assumption logs 2 and 3). -/
def State.withEnv (s : State) (p : List CycleIn) (l : List CycleRecord) : State := { s with pending := p, log := l }

section
variable (s : State) (p : List CycleIn) (l : List CycleRecord)

@[simp] theorem State.withEnv_st : (s.withEnv p l).st = s.st := rfl
@[simp] theorem State.withEnv_pending : (s.withEnv p l).pending = p := rfl

theorem State.capture_withEnv (fk : FrameKind) (k : Nat) (rx : Byte) :
    (s.withEnv p l).capture fk k rx = (s.capture fk k rx).withEnv p l := by
  cases fk <;> simp only [State.capture, apply_ite (State.withEnv · p l)] <;> rfl

theorem State.frameEffect_withEnv (fk : FrameKind) : (s.withEnv p l).frameEffect fk = (s.frameEffect fk).withEnv p l := by
  cases fk <;> rfl

theorem State.xferEdge_withEnv (x : CycleIn) : (s.withEnv p l).xferEdge x = (s.xferEdge x).withEnv p l := by
  have hcap : (s.withEnv p l).capture (s.withEnv p l).fk (s.withEnv p l).si.toNat x.xferRx =
      (s.capture s.fk s.si.toNat x.xferRx).withEnv p l := s.capture_withEnv p l s.fk s.si.toNat x.xferRx
  simp only [State.xferEdge, hcap, State.frameEffect_withEnv, apply_ite (State.withEnv · p l)]
  rfl

theorem State.pollDecision_withEnv : (s.withEnv p l).pollDecision = s.pollDecision.withEnv p l := by
  simp only [State.pollDecision, apply_ite (State.withEnv · p l)]; rfl

theorem State.startWait_withEnv : (s.withEnv p l).startWait = s.startWait.withEnv p l := by
  have hp : (s.withEnv p l).policy = s.policy := rfl
  unfold State.startWait
  rw [hp]
  cases s.policy with
  | fixedDelay => simp only [apply_ite (State.withEnv · p l)]; rfl
  | pollStatus => rfl

theorem State.afterGap_withEnv : (s.withEnv p l).afterGap = s.afterGap.withEnv p l := by
  simp only [State.afterGap, State.startWait_withEnv, State.pollDecision_withEnv, apply_ite (State.withEnv · p l)]; rfl

theorem State.fsmEdge_withEnv (x : CycleIn) : (s.withEnv p l).fsmEdge x = (s.fsmEdge x).withEnv p l := by
  unfold State.fsmEdge
  rw [State.withEnv_st]
  cases s.st with
  | idle => rfl
  | check => simp only [State.checkEdge, apply_ite (State.withEnv · p l)]; rfl
  | assert => rfl
  | xfer => exact s.xferEdge_withEnv p l x
  | gap => simp only [State.gapEdge, State.afterGap_withEnv, apply_ite (State.withEnv · p l)]; rfl
  | delay => simp only [State.delayEdge, apply_ite (State.withEnv · p l)]; rfl
  | pgap => simp only [State.pgapEdge, apply_ite (State.withEnv · p l)]; rfl
  | finish => rfl

end

/-! ### What chip-select windows a stretch of the wire shows -/

/-- What a device sees of the cycle `x` in state `s`. -/
def State.wire (s : State) (x : CycleIn) : WireCycle := CycleRecord.wire s.build.transportHasErr ⟨x, s.outputs x⟩

/-- The frames of some cycles of the wire, `window` being the one that is open before the first of them. -/
def framesOnWire (window : Option Frame) : List WireCycle → List Frame
  | [] => window.toList
  | .high :: ws => window.toList ++ framesOnWire none ws
  | .low e _ :: ws => framesOnWire (some (window.getD [] ++ e.toList)) ws

/-- The frames are what the wire shows (R71, R136). -/
theorem framesFrom_eq_framesOnWire (hasErr : Bool) (window : Option Frame) (rs : List CycleRecord) :
    framesFrom hasErr window rs = framesOnWire window (rs.map (CycleRecord.wire hasErr)) := by
  induction rs generalizing window with
  | nil => rfl
  | cons r rs ih =>
    rw [List.map_cons, framesFrom, CycleRecord.wire]
    split
    · rw [framesOnWire, ih]
    · rw [framesOnWire, ih]

/-- These cycles, after chip-select high, are whole frames that send the bytes `sent`, whatever follows. -/
def Shows (ws : List WireCycle) (sent : List (List Byte)) : Prop :=
  ∀ rest, (framesOnWire none (ws ++ rest)).map Frame.sent = sent ++ (framesOnWire none rest).map Frame.sent

theorem Shows.append {ws vs : List WireCycle} {a b : List (List Byte)} (h : Shows ws a) (h' : Shows vs b) :
    Shows (ws ++ vs) (a ++ b) := by
  intro rest
  rw [List.append_assoc, h, h', List.append_assoc]

theorem shows_nil : Shows [] [] := fun _ => rfl

theorem Shows.high {ws : List WireCycle} {a : List (List Byte)} (h : Shows ws a) : Shows (.high :: ws) a := h

theorem shows_replicate_high (n : Nat) : Shows (List.replicate n .high) [] := by
  induction n with
  | zero => exact shows_nil
  | succ n ih => exact ih.high

/-- A cycle with chip-select high before and after. -/
theorem Shows.within_high {ws : List WireCycle} {a : List (List Byte)} (h : Shows ws a) : Shows (.high :: (ws ++ [.high])) a :=
  (List.append_nil a ▸ h.append (shows_replicate_high 1)).high

/-- All frames of some cycles. -/
theorem Shows.frames {ws : List WireCycle} {sent : List (List Byte)} (h : Shows ws sent) :
    (framesOnWire none ws).map Frame.sent = sent := by
  simpa [framesOnWire] using h []

/-- These cycles add the bytes `sent` to the frame of an open window. -/
def Sends (ws : List WireCycle) (sent : List Byte) : Prop :=
  ∀ f : Frame, ∃ g : Frame, g.sent = f.sent ++ sent ∧
    ∀ rest, framesOnWire (some f) (ws ++ rest) = framesOnWire (some g) rest

theorem sends_nil : Sends [] [] := fun f => ⟨f, (List.append_nil _).symm, fun _ => rfl⟩

/-- A cycle with chip-select low in which no exchange completes. -/
theorem Sends.wait {ws : List WireCycle} {sent : List Byte} (h : Sends ws sent) (cut : Bool) :
    Sends (.low none cut :: ws) sent := by
  intro f
  obtain ⟨g, hg, hrest⟩ := h f
  refine ⟨g, hg, fun rest => ?_⟩
  rw [← hrest, List.cons_append, framesOnWire, Option.toList_none, Option.getD_some, List.append_nil]

/-- A cycle in which an exchange completes. -/
theorem Sends.exchange {ws : List WireCycle} {sent : List Byte} (h : Sends ws sent) (e : Exchange) (cut : Bool) :
    Sends (.low (some e) cut :: ws) (e.tx :: sent) := by
  intro f
  obtain ⟨g, hg, hrest⟩ := h (f ++ [e])
  refine ⟨g, by rw [hg, Frame.sent, List.map_append, List.append_assoc]; rfl, fun rest => ?_⟩
  rw [← hrest, List.cons_append, framesOnWire, Option.toList_some, Option.getD_some]

/-- R95: a cycle with chip-select low, exchanges, and chip-select high again: one frame. -/
theorem Sends.frame {ws : List WireCycle} {sent : List Byte} (h : Sends ws sent) (cut : Bool) {n : Nat} (hn : n ≠ 0) :
    Shows (.low none cut :: (ws ++ List.replicate n .high)) [sent] := by
  intro rest
  obtain ⟨m, rfl⟩ := Nat.exists_eq_succ_of_ne_zero hn
  obtain ⟨g, hg, hrest⟩ := h []
  have hhigh := shows_replicate_high m rest
  rw [List.nil_append] at hhigh
  rw [List.cons_append, framesOnWire, Option.toList_none, Option.getD_none, List.append_nil, List.append_assoc, hrest,
    List.replicate_succ, List.cons_append, framesOnWire, List.map_append, hhigh]
  exact congrArg (· :: _) hg

/-- Chip-select is high outside ASSERT and XFER (R39). -/
theorem State.wire_of_csN {s : State} (h : s.csN = true) (x : CycleIn) : s.wire x = .high := by
  simp [State.wire, CycleRecord.wire, State.outputs, h]

/-- ASSERT: chip-select is low, and no byte is requested. -/
theorem State.wire_assert {s : State} (h : s.st = .assert) (x : CycleIn) : s.wire x = .low none x.rst := by
  simp [State.wire, CycleRecord.wire, State.outputs, State.csN, State.xferReq, CycleRecord.exchange?, h]

/-- XFER without an answer of the transport. -/
theorem State.wire_xfer_waiting {s : State} (h : s.st = .xfer) {x : CycleIn} (hx : x.xferDone = false) :
    s.wire x = .low none x.rst := by
  simp [State.wire, CycleRecord.wire, State.outputs, State.csN, CycleRecord.exchange?, h, hx]

/-- XFER with an answer of the transport: the byte of the slot has been sent. -/
theorem State.wire_xfer_done {s : State} (h : s.st = .xfer) (hsi : s.si.toNat < s.flen s.fk) {x : CycleIn}
    (hx : x.xferDone = true) :
    s.wire x = .low (some ⟨s.slotByte s.fk s.si.toNat, x.xferRx, x.xferErr && s.build.transportHasErr⟩) x.rst := by
  simp [State.wire, CycleRecord.wire, State.outputs, State.csN, State.xferReq, State.xferTx, CycleRecord.exchange?, h, hx,
    State.txByte_of_lt hsi]

/-! ### Busy cycles -/

/-- Over the calm cycles `xs` the block goes from `s` to `t` and is busy in each of them; a device sees `ws`. The environment's
fields stand still: `State.BusyOver.waitIdle` says what becomes of them in a run. -/
inductive State.BusyOver : State → List CycleIn → List WireCycle → State → Prop
  | nil (s : State) : BusyOver s [] [] s
  | cons {s t : State} {x : CycleIn} {xs : List CycleIn} {ws : List WireCycle} (calm : x.calm = true) (busy : s.st ≠ .idle)
      (rest : BusyOver (s.fsmEdge x) xs ws t) : BusyOver s (x :: xs) (s.wire x :: ws) t

theorem State.BusyOver.append {s t u : State} {xs ys : List CycleIn} {ws vs : List WireCycle} (h : s.BusyOver xs ws t)
    (h' : t.BusyOver ys vs u) : s.BusyOver (xs ++ ys) (ws ++ vs) u := by
  induction h with
  | nil => exact h'
  | cons calm busy _ ih => exact .cons calm busy (ih h')

/-- One cycle and those after it, with what a device sees of it and where the FSM goes given by equations. -/
theorem State.BusyOver.step {s t u : State} {x : CycleIn} {xs : List CycleIn} {w : WireCycle} {ws : List WireCycle}
    (hx : x.calm = true) (busy : s.st ≠ .idle) (hw : s.wire x = w) (he : s.fsmEdge x = u) (h : u.BusyOver xs ws t) :
    s.BusyOver (x :: xs) (w :: ws) t :=
  hw ▸ .cons hx busy (he ▸ h)

theorem State.fsmEdge_build (s : State) (x : CycleIn) : (s.fsmEdge x).build = s.build := by
  obtain ⟨-, -, -, -, -, -, hbuild, -, -⟩ := s.sameConfig_fsmEdge x
  exact hbuild

theorem State.BusyOver.build {s t : State} {xs : List CycleIn} {ws : List WireCycle} (h : s.BusyOver xs ws t) :
    t.build = s.build := by
  induction h with
  | nil => rfl
  | cons _ _ _ ih => rw [ih, State.fsmEdge_build]

/-! ### The counters -/

/-- The state at the end of a wait: the down-counter has come to 1. -/
def State.countedDown (s : State) : State := { s with cnt := 1 }

/-- The FSM states that wait for the down-counter (R129, R132, R133). -/
def SeqState.counts (st : SeqState) : Prop := st = .gap ∨ st = .delay ∨ st = .pgap

theorem State.csN_of_counts {s : State} (h : s.st.counts) : s.csN = true := by
  rcases h with h | h | h <;> simp [State.csN, h]

theorem SeqState.counts.busy {st : SeqState} (h : st.counts) : st ≠ .idle := by
  rcases h with rfl | rfl | rfl <;> decide

theorem State.fsmEdge_of_counts {s : State} (h : s.st.counts) (hc : 1 < s.cnt) (x : CycleIn) : s.fsmEdge x = s.countDown := by
  rcases h with h | h | h <;> simp only [State.fsmEdge, h] <;> exact if_pos hc

/-- A wait of `n` cycles: chip-select is high, the down-counter comes to 1, and the last cycle leaves for `t`. -/
theorem State.BusyOver.wait {s t : State} {n : Nat} {xs : List CycleIn} (h : s.st.counts) (hn : s.cnt.toNat = n) (h0 : n ≠ 0)
    (hx : calmCycles n xs) (leave : ∀ x, s.countedDown.fsmEdge x = t) : s.BusyOver xs (List.replicate n .high) t := by
  obtain ⟨hlen, hcalm⟩ := hx
  induction xs generalizing s n with
  | nil => exact absurd hlen.symm h0
  | cons x xs ih =>
    have hxc : x.calm = true := hcalm x List.mem_cons_self
    have hw : s.wire x = .high := State.wire_of_csN (State.csN_of_counts h) x
    subst hlen
    rw [List.length_cons] at hn
    by_cases hxs : xs = []
    · subst hxs
      have hs : s.countedDown = s := by rw [State.countedDown, ← (BitVec.eq_of_toNat_eq hn : s.cnt = 1)]
      exact .step hxc h.busy hw (hs ▸ leave x) (.nil _)
    · have hpos : xs.length ≠ 0 := by simpa using hxs
      have hc : 1 < s.cnt := by
        rw [BitVec.lt_def, hn]; change 1 < _; omega
      have hcnt : s.countDown.cnt.toNat = xs.length := by
        change (s.cnt - 1).toNat = _; bv_omega
      exact .step hxc h.busy hw (State.fsmEdge_of_counts h hc x)
        (ih (s := s.countDown) h hcnt hpos leave rfl fun z hz => hcalm z (List.mem_cons_of_mem x hz))

/-- The end of GAP. -/
theorem State.fsmEdge_countedDown_of_gap {s : State} (h : s.st = .gap) (x : CycleIn) :
    s.countedDown.fsmEdge x = s.countedDown.afterGap := by
  have hst : s.countedDown.st = .gap := h
  simp only [State.fsmEdge, hst]
  rfl

/-! ### One frame -/

/-- R126: what a byte that is not the last of its frame does to the state. -/
def State.takeByte (s : State) (b : Byte) : State := (s.capture s.fk s.si.toNat b).nextSlot

/-- What the bytes `rx`, received from the current slot to the end of the frame, do to the state (R126, R127). -/
def State.exchange (s : State) : List Byte → State
  | [] => s
  | [b] => ((s.capture s.fk s.si.toNat b).frameEffect s.fk).closeFrame
  | b :: b' :: bs => (s.takeByte b).exchange (b' :: bs)

/-- A byte that is not the last leaves all but the slot index, STAGE and SR alone. -/
theorem State.takeByte_eq (s : State) (b : Byte) :
    s.takeByte b = { s with si := s.si + 1, stage := (s.takeByte b).stage, sr := (s.takeByte b).sr } := by
  unfold State.takeByte
  rcases s.capture_cases s.fk s.si.toNat b with ⟨-, -, -, e⟩ | ⟨-, -, e⟩ | e <;> rw [e] <;> rfl

@[simp] theorem State.takeByte_st (s : State) (b : Byte) : (s.takeByte b).st = s.st := by rw [takeByte_eq]
@[simp] theorem State.takeByte_lastCmd (s : State) (b : Byte) : (s.takeByte b).lastCmd = s.lastCmd := by rw [takeByte_eq]
@[simp] theorem State.takeByte_fk (s : State) (b : Byte) : (s.takeByte b).fk = s.fk := by rw [takeByte_eq]
@[simp] theorem State.takeByte_si (s : State) (b : Byte) : (s.takeByte b).si = s.si + 1 := by rw [takeByte_eq]
@[simp] theorem State.takeByte_buf (s : State) (b : Byte) : (s.takeByte b).buf = s.buf := by rw [takeByte_eq]
@[simp] theorem State.takeByte_build (s : State) (b : Byte) : (s.takeByte b).build = s.build := by rw [takeByte_eq]

/-- R24, R126: the slot index of a slot that is not the last does not wrap. -/
theorem State.toNat_si_succ {s : State} (h : s.si.toNat + 1 < s.flen s.fk) : (s.si + 1).toNat = s.si.toNat + 1 := by
  have := s.flen_lt s.fk
  bv_omega

/-- R125: XFER without an answer. -/
theorem State.fsmEdge_xfer_waiting {s : State} {x : CycleIn} (hst : s.st = .xfer) (hx : x.xferDone = false) :
    s.fsmEdge x = s := by
  simp only [State.fsmEdge, hst, State.xferEdge, hx, if_true]

/-- R126: XFER with an answer that is not the last of the frame. -/
theorem State.fsmEdge_xfer_next {s : State} {x : CycleIn} (hst : s.st = .xfer) (hx : x.xferDone = true)
    (herr : x.xferErr = false) (h : s.si.toNat + 1 < s.flen s.fk) : s.fsmEdge x = s.takeByte x.xferRx := by
  have hfails : s.xferFails x = false := by simp [State.xferFails, herr]
  simp only [State.fsmEdge, hst, State.xferEdge, hx, hfails, if_pos (Nat.lt_sub_of_add_lt h)]
  rfl

/-- R127: XFER with the last answer of the frame. -/
theorem State.fsmEdge_xfer_last {s : State} {x : CycleIn} (hst : s.st = .xfer) (hx : x.xferDone = true)
    (herr : x.xferErr = false) (h : s.si.toNat + 1 = s.flen s.fk) : s.fsmEdge x = s.exchange [x.xferRx] := by
  have hfails : s.xferFails x = false := by simp [State.xferFails, herr]
  simp only [State.fsmEdge, hst, State.xferEdge, hx, hfails, ← h, Nat.add_sub_cancel, lt_irrefl]
  rfl

theorem serves_nil_iff (xs : List CycleIn) : serves [] xs = true ↔ xs = [] := by
  cases xs <;> simp [serves]

/-- R38, R125: the next cycle of a frame brings nothing, or the next byte. -/
theorem serves_cons_iff (b : Byte) (bs : List Byte) (x : CycleIn) (xs : List CycleIn) :
    serves (b :: bs) (x :: xs) = true ↔ x.calm = true ∧ ((x.xferDone = false ∧ serves (b :: bs) xs = true) ∨
      (x.xferDone = true ∧ x.xferErr = false ∧ x.xferRx = b ∧ serves bs xs = true)) := by
  cases h : x.xferDone <;> simp [serves, h, and_assoc]

/-- R125 to R127: XFER from the current slot to the end of the frame. -/
theorem State.BusyOver.xfer {s : State} {rx : List Byte} {xs : List CycleIn} (hst : s.st = .xfer) (hne : rx ≠ [])
    (hlen : s.si.toNat + rx.length = s.flen s.fk) (h : serves rx xs = true) :
    ∃ ws, s.BusyOver xs ws (s.exchange rx) ∧
      Sends ws ((List.range' s.si.toNat rx.length).map (s.slotByte s.fk)) := by
  have busy : s.st ≠ .idle := by rw [hst]; decide
  induction xs generalizing s rx with
  | nil => exact absurd (List.isEmpty_iff.mp h) hne
  | cons x xs ih =>
    obtain ⟨b, bs, rfl⟩ := List.exists_cons_of_ne_nil hne
    obtain ⟨hx, ⟨hdone, hxs⟩ | ⟨hdone, herr, rfl, hxs⟩⟩ := (serves_cons_iff b bs x xs).mp h
    · obtain ⟨ws, hws, hsent⟩ := ih hst hne hlen hxs busy
      exact ⟨_, .step hx busy (State.wire_xfer_waiting hst hdone) (State.fsmEdge_xfer_waiting hst hdone) hws, hsent.wait _⟩
    · rw [List.length_cons] at hlen ⊢
      have hw := State.wire_xfer_done hst (by omega) hdone
      rw [List.range'_succ, List.map_cons]
      cases bs with
      | nil =>
        obtain rfl := (serves_nil_iff xs).mp hxs
        exact ⟨_, .step hx busy hw (State.fsmEdge_xfer_last hst hdone herr hlen) (.nil _), sends_nil.exchange _ _⟩
      | cons b' bs =>
        rw [List.length_cons] at hlen
        have hsi : (s.takeByte x.xferRx).si.toNat = s.si.toNat + 1 := by
          rw [State.takeByte_si, State.toNat_si_succ (by omega)]
        have hbytes : (s.takeByte x.xferRx).slotByte (s.takeByte x.xferRx).fk = s.slotByte s.fk := by
          funext k
          rw [State.takeByte_fk, State.slotByte_congr (s.takeByte_lastCmd _) (s.takeByte_buf _)]
        obtain ⟨ws, hws, hsent⟩ := ih (s := s.takeByte x.xferRx) ((s.takeByte_st _).trans hst) (List.cons_ne_nil b' bs)
          (by rw [hsi, State.takeByte_fk, State.flen_congr (s.takeByte_lastCmd _), List.length_cons]; omega) hxs
          (by rwa [State.takeByte_st])
        rw [hsi, hbytes] at hsent
        exact ⟨_, .step hx busy hw (State.fsmEdge_xfer_next hst hdone herr (by omega)) hws, hsent.exchange _ _⟩

/-- R127: a whole frame ends in GAP, for CS_GAP cycles. -/
theorem State.exchange_closes (s : State) {rx : List Byte} (h : rx ≠ []) :
    (s.exchange rx).st = .gap ∧ (s.exchange rx).cnt = s.build.csGap.setWidth 32 := by
  induction rx generalizing s with
  | nil => exact absurd rfl h
  | cons b bs ih =>
    cases bs with
    | nil =>
      obtain ⟨-, -, -, -, -, -, hbuild, -, -⟩ := (s.sameConfig_capture s.fk s.si.toNat b).trans
        (State.sameConfig_frameEffect _ s.fk)
      exact ⟨rfl, by rw [← hbuild]; rfl⟩
    | cons b' bs =>
      rw [State.exchange, ← s.takeByte_build b]
      exact ih _ (List.cons_ne_nil _ _)

/-- R9: CS_GAP is not 0. -/
theorem csGap_ne_zero {b : Build} (h : b.Legal) : b.csGap.toNat ≠ 0 := by
  obtain ⟨-, -, hgap, -⟩ := h
  exact fun h0 => hgap (BitVec.eq_of_toNat_eq h0)

/-- R123 to R130, R136: a whole frame, from ASSERT through GAP. -/
theorem State.BusyOver.frame {s : State} {rx : List Byte} {xs : List CycleIn} (hl : s.build.Legal) (hst : s.st = .assert)
    (hlen : rx.length = s.flen s.fk) (h : frameCycles s.build.csGap.toNat rx xs) :
    ∃ ws, s.BusyOver xs ws (s.assertEdge.exchange rx).countedDown.afterGap ∧
      Shows ws [(List.range (s.flen s.fk)).map (s.slotByte s.fk)] := by
  obtain ⟨a, ys, g, rfl, ha, hys, hg⟩ := h
  have hne : rx ≠ [] := List.ne_nil_of_length_pos (hlen ▸ s.flen_pos s.fk)
  obtain ⟨ws, hws, hsent⟩ := State.BusyOver.xfer (s := s.assertEdge) rfl hne ((Nat.zero_add _).trans hlen) hys
  obtain ⟨hgap, hcnt⟩ := s.assertEdge.exchange_closes hne
  have hlast : (s.assertEdge.exchange rx).cnt.toNat = s.build.csGap.toNat := by
    rw [hcnt]; exact BitVec.toNat_setWidth_of_le (by decide)
  have hwait := State.BusyOver.wait (.inl hgap) hlast (csGap_ne_zero hl) hg (State.fsmEdge_countedDown_of_gap hgap)
  have he : s.fsmEdge a = s.assertEdge := by simp only [State.fsmEdge, hst]
  rw [hlen] at hsent
  rw [List.range_eq_range']
  exact ⟨_, .step ha (by rw [hst]; decide) (State.wire_assert hst a) he (hws.append hwait), hsent.frame _ (csGap_ne_zero hl)⟩

end Sys2Proof.Machine
end

/-! SUPPORT. What follows a frame's GAP, and what the bytes received in a frame of each kind do to the state. -/

section
namespace Sys2Proof.Machine

/-! ### Leaving GAP -/

theorem State.afterGap_of_enable {s : State} (ha : s.abort = false) (hk : s.fk = .wren) (ho : s.curOpc = opcWrite) :
    s.afterGap = s.openFrame .write := by
  simp [State.afterGap, ha, hk, ho]

theorem State.afterGap_of_write {s : State} (ha : s.abort = false) (hk : s.fk = .write) : s.afterGap = s.startWait := by
  simp [State.afterGap, ha, hk]

theorem State.afterGap_of_poll {s : State} (ha : s.abort = false) (hk : s.fk = .poll) : s.afterGap = s.pollDecision := by
  simp [State.afterGap, ha, hk]

/-- R130: after the one frame of a command that has no other. -/
theorem State.afterGap_of_only {s : State} (ha : s.abort = false) (hw : s.fk = .wren → s.curOpc ≠ opcWrite)
    (hk : s.fk ≠ .write) (hp : s.fk ≠ .poll) : s.afterGap = s.toFinish := by
  have hw' : ¬ (s.fk = .wren ∧ s.curOpc = opcWrite) := fun h => hw h.1 h.2
  simp only [State.afterGap, ha, Bool.false_eq_true, if_neg hw', if_neg hk, if_neg hp, if_false]

/-! ### The frames, kind by kind -/

/-- R98: the frames of which the block keeps no received byte. -/
def FrameKind.Discards : FrameKind → Prop
  | .wren | .wrdi | .write | .wrsr => True
  | .read | .rdsr | .poll => False

theorem State.capture_of_discards {fk : FrameKind} (h : fk.Discards) (s : State) (k : Nat) (rx : Byte) :
    s.capture fk k rx = s := by
  cases fk with
  | wren | wrdi | write | wrsr => rfl
  | read | rdsr | poll => exact h.elim

theorem State.frameEffect_of_discards {fk : FrameKind} (h : fk.Discards) (s : State) : s.frameEffect fk = s := by
  cases fk with
  | wren | wrdi | write | wrsr => rfl
  | read | rdsr | poll => exact h.elim

theorem State.exchange_of_discards {s : State} (h : s.fk.Discards) {rx : List Byte} (hne : rx ≠ []) :
    ∃ si, s.exchange rx = ({ s with si := si } : State).closeFrame := by
  induction rx generalizing s with
  | nil => exact absurd rfl hne
  | cons b bs ih =>
    cases bs with
    | nil => exact ⟨s.si, by rw [State.exchange, State.capture_of_discards h, State.frameEffect_of_discards h]⟩
    | cons b' bs =>
      rw [State.exchange, State.takeByte, State.capture_of_discards h]
      exact ih (s := s.nextSlot) h (List.cons_ne_nil _ _)

/-- R98, R127: the second byte of an RDSR or of a poll goes to SR; a poll is counted. -/
theorem State.exchange_status {s : State} (h : s.fk = .rdsr ∨ s.fk = .poll) (hsi : s.si = 0) (b status : Byte) :
    s.exchange [b, status] = (({ s with si := 1, sr := status } : State).frameEffect s.fk).closeFrame := by
  rcases h with h | h <;> simp [State.exchange, State.takeByte, State.capture, State.nextSlot, State.setSr, h, hsi]

/-- R98: one received byte of a READ, whatever its slot, goes to the byte of STAGE that is three below. -/
theorem State.read_capture_read {s : State} (hwf : s.stage.wf) (hlen : s.curArg.toNat ≤ s.build.bufBytes) {k : Nat}
    (hk : k < 3 + s.curArg.toNat) (rx : Byte) (i : Nat) :
    (s.capture .read k rx).stage.read i = if i + 3 = k then rx else s.stage.read i := by
  by_cases h3 : 3 ≤ k
  · rw [State.capture_read rx ⟨h3, hk⟩, State.read_setStage hwf]
    have hiff : (i = k - 3 ∧ k - 3 < s.build.bufBytes) ↔ i + 3 = k := by omega
    simp only [hiff]
  · rw [if_neg (by omega), State.capture, if_neg (fun h => h3 h.1)]

theorem State.wf_capture {s : State} (hwf : s.stage.wf) (fk : FrameKind) (k : Nat) (rx : Byte) :
    (s.capture fk k rx).stage.wf := by
  rcases s.capture_cases fk k rx with ⟨-, -, -, e⟩ | ⟨-, -, e⟩ | e <;> rw [e]
  · exact State.wf_setStage hwf _ _
  · exact hwf
  · exact hwf

/-- The state with another slot index and another STAGE. -/
def State.staged (s : State) (si : BitVec 9) (stage : Memory) : State := { s with si := si, stage := stage }

/-- A capture of a READ leaves all but STAGE alone. -/
theorem State.capture_read_eq_staged (s : State) (k : Nat) (rx : Byte) :
    s.capture .read k rx = s.staged s.si (s.capture .read k rx).stage := by
  rcases s.capture_cases .read k rx with ⟨-, -, -, e⟩ | ⟨h, -⟩ | e
  · rw [e]; rfl
  · rcases h with h | h <;> cases h
  · rw [e]; rfl

/-- The element of `b :: bs` that stands at `j` when the list is laid from `k` on: `b` at `k`, and the others from `k + 1` on. -/
theorem getD_cons_from {α : Type} (b : α) (bs : List α) (d : α) (k j : Nat) :
    (if k ≤ j then (b :: bs).getD (j - k) d else d) =
      if j = k then b else if k + 1 ≤ j then bs.getD (j - (k + 1)) d else d := by
  rcases Nat.lt_trichotomy j k with h | rfl | h
  · rw [if_neg (by omega), if_neg (by omega), if_neg (by omega)]
  · simp
  · obtain ⟨m, rfl⟩ : ∃ m, j = k + 1 + m := ⟨j - (k + 1), by omega⟩
    rw [if_pos (by omega), if_neg (by omega), if_pos (by omega), show k + 1 + m - k = m + 1 by omega, List.getD_cons_succ,
      Nat.add_sub_cancel_left]

/-- R98, R127: the bytes of a READ, received from the current slot on, are in STAGE from the byte three below that slot on, and
the first LEN bytes of STAGE go to BUF. -/
theorem State.exchange_read {s : State} (hfk : s.fk = .read) (hwf : s.stage.wf) (hlen : s.curArg.toNat ≤ s.build.bufBytes)
    {rx : List Byte} (hne : rx ≠ []) (hrx : s.si.toNat + rx.length = 3 + s.curArg.toNat) :
    ∃ si stage, s.exchange rx = ((s.staged si stage).commitStage s.curArg.toNat).closeFrame ∧
      ∀ i, stage.read i =
        if s.si.toNat ≤ i + 3 then rx.getD (i + 3 - s.si.toNat) (s.stage.read i) else s.stage.read i := by
  induction rx generalizing s with
  | nil => exact absurd rfl hne
  | cons b bs ih =>
    rw [List.length_cons] at hrx
    have hcap := s.capture_read_eq_staged s.si.toNat b
    have hstage := State.read_capture_read hwf hlen (k := s.si.toNat) (by omega) b
    have hwf' := State.wf_capture hwf .read s.si.toNat b
    set stage' := (s.capture .read s.si.toNat b).stage
    cases bs with
    | nil =>
      refine ⟨s.si, stage', by rw [State.exchange, hfk, hcap]; rfl, fun i => ?_⟩
      rw [hstage, getD_cons_from, List.getD_nil, ite_self]
    | cons b' bs =>
      rw [List.length_cons] at hrx
      have htake : s.takeByte b = s.staged (s.si + 1) stage' := by rw [State.takeByte, hfk, hcap]; rfl
      have hsi : (s.si + 1).toNat = s.si.toNat + 1 := State.toNat_si_succ (by rw [hfk, State.flen]; omega)
      obtain ⟨si, stage, he, hread⟩ := ih (s := s.staged (s.si + 1) stage') hfk hwf' hlen (List.cons_ne_nil _ _)
        (by change (s.si + 1).toNat + _ = 3 + s.curArg.toNat; rw [hsi, List.length_cons]; omega)
      refine ⟨si, stage, by rw [State.exchange, htake, he]; rfl, fun i => ?_⟩
      have hread := hread i
      change _ = if (s.si + 1).toNat ≤ i + 3 then (b' :: bs).getD (i + 3 - (s.si + 1).toNat) (stage'.read i) else stage'.read i
        at hread
      rw [hread, hsi, hstage, getD_cons_from b]
      by_cases hi : i + 3 = s.si.toNat
      · rw [if_pos hi, if_pos hi, if_neg (by omega)]
      · rw [if_neg hi, if_neg hi]

end Sys2Proof.Machine
end

/-! SUPPORT. The polls and the waits of a WRITE, whole commands, and the host's cycles around them, over the cycles in which the
block is busy. -/

section
namespace Sys2Proof.Machine

/-! ### The frames of a WRITE, and its polls -/

/-- A frame of which the block keeps no received byte. -/
theorem State.BusyOver.frame_of_discards {s : State} {rx : List Byte} {xs : List CycleIn} (hl : s.build.Legal)
    (hst : s.st = .assert) (hfk : s.fk.Discards) (hlen : rx.length = s.flen s.fk)
    (h : frameCycles s.build.csGap.toNat rx xs) :
    ∃ ws si, s.BusyOver xs ws ({ s with si := si, cnt := 1, st := .gap } : State).afterGap ∧
      Shows ws [(List.range (s.flen s.fk)).map (s.slotByte s.fk)] := by
  have hne : rx ≠ [] := List.ne_nil_of_length_pos (hlen ▸ s.flen_pos s.fk)
  obtain ⟨ws, hws, hsent⟩ := State.BusyOver.frame hl hst hlen h
  obtain ⟨si, he⟩ := State.exchange_of_discards (s := s.assertEdge) hfk hne
  rw [he] at hws
  exact ⟨ws, si, hws, hsent⟩

/-- R164: what `n` polls, of which the last brings `b`, have done once the next is in ASSERT. -/
def State.polled (s : State) (n : Nat) (b : Byte) : State :=
  { s with sr := b, polls := s.polls + BitVec.ofNat 16 n, si := 1, cnt := 1 }

theorem State.polled_polled (s : State) (m n : Nat) (a b : Byte) : (s.polled m a).polled n b = s.polled (m + n) b := by
  simp only [State.polled, BitVec.ofNat_add, BitVec.add_assoc]

/-- One poll, up to its decision. -/
theorem State.BusyOver.poll {s : State} {b0 b : Byte} {xs : List CycleIn} (hl : s.build.Legal) (hst : s.st = .assert)
    (hfk : s.fk = .poll) (ha : s.abort = false) (h : frameCycles s.build.csGap.toNat [b0, b] xs) :
    ∃ ws, s.BusyOver xs ws ({ s.polled 1 b with st := .gap } : State).pollDecision ∧ Shows ws [[0x05, 0x00]] := by
  obtain ⟨ws, hws, hsent⟩ := State.BusyOver.frame hl hst (by rw [hfk]; rfl) h
  have he : (s.assertEdge.exchange [b0, b]).countedDown = { s.polled 1 b with st := .gap } := by
    rw [State.exchange_status (s := s.assertEdge) (.inr hfk) rfl]
    change ((State.frameEffect _ s.fk).closeFrame).countedDown = _
    rw [hfk]; rfl
  rw [he, State.afterGap_of_poll (s := { s.polled 1 b with st := .gap }) ha hfk] at hws
  rw [hfk] at hsent
  exact ⟨ws, hws, hsent⟩

/-- R134, R133: where another poll is due, it comes at once or after PGAP. -/
theorem State.BusyOver.pollAgain {s : State} {xs : List CycleIn} (hfk : s.fk = .poll) (hcnt : s.cnt = 1)
    (hwip : writeInProgress s.sr = true) (hp : s.polls < s.limit) (hx : calmCycles s.pollGap.toNat xs) :
    ∃ ws, s.pollDecision.BusyOver xs ws s.reassert ∧ Shows ws [] := by
  rcases s.pollDecision_cases with ⟨h, -⟩ | ⟨-, h, -⟩ | ⟨-, -, hgap, e⟩ | ⟨-, -, hgap, e⟩
  · rw [h] at hwip; cases hwip
  · exact absurd hp (BitVec.not_lt.mpr h)
  · rw [hgap] at hx
    obtain rfl : xs = [] := List.eq_nil_of_length_eq_zero hx.1
    have he : s.openFrame .poll = s.reassert := by rw [State.openFrame, State.reassert, ← hfk]
    rw [e, he]
    exact ⟨[], .nil _, shows_nil⟩
  · have hlen : s.startPollGap.cnt.toNat = s.pollGap.toNat := BitVec.toNat_setWidth_of_le (by decide)
    have hpos : s.pollGap.toNat ≠ 0 := fun h0 => hgap (BitVec.eq_of_toNat_eq h0)
    have he (x : CycleIn) : s.startPollGap.countedDown.fsmEdge x = s.reassert := by rw [State.reassert, hcnt]; rfl
    rw [e]
    exact ⟨_, State.BusyOver.wait (.inr (.inr rfl)) hlen hpos hx he, shows_replicate_high _⟩

/-- R164: the polls of a WRITE that ends with Ok. -/
theorem State.BusyOver.polls {s : State} {waiting : List Byte} {last : Byte} {xs : List CycleIn} (hl : s.build.Legal)
    (hst : s.st = .assert) (hfk : s.fk = .poll) (ha : s.abort = false)
    (h : pollCycles s.build.csGap.toNat s.pollGap.toNat (waiting ++ [last]) xs) (hw : ∀ b ∈ waiting, b.getLsbD 0 = true)
    (hlast : last.getLsbD 0 = false) (hlimit : s.polls.toNat + waiting.length + 1 ≤ s.limit.toNat) :
    ∃ ws, s.BusyOver xs ws (s.polled (waiting.length + 1) last).toFinish ∧
      Shows ws (List.replicate (waiting.length + 1) [0x05, 0x00]) := by
  induction waiting generalizing s xs with
  | nil =>
    obtain ⟨b0, h⟩ := h
    obtain ⟨ws, hws, hsent⟩ := State.BusyOver.poll hl hst hfk ha h
    have hdone : State.pollDecision { s.polled 1 last with st := .gap } = (s.polled 1 last).toFinish := if_pos hlast
    exact ⟨ws, hdone ▸ hws, hsent⟩
  | cons b bs ih =>
    obtain ⟨b', bs', hbs⟩ := List.exists_cons_of_ne_nil (List.append_ne_nil_of_right_ne_nil bs (List.cons_ne_nil last []))
    rw [List.cons_append, hbs] at h
    obtain ⟨b0, fr, d, rest, rfl, hfr, hd, hrest⟩ := h
    rw [← hbs] at hrest
    rw [List.length_cons] at hlimit
    have hbwip : b.getLsbD 0 = true := hw b List.mem_cons_self
    obtain ⟨ws, hws, hsent⟩ := State.BusyOver.poll hl hst hfk ha hfr
    have hpolls : (s.polled 1 b).polls.toNat = s.polls.toNat + 1 := by
      have := s.limit.isLt
      change (s.polls + 1).toNat = _
      bv_omega
    have hleft : (s.polled 1 b).polls < s.limit := by rw [BitVec.lt_def, hpolls]; omega
    have hback : State.reassert { s.polled 1 b with st := .gap } = s.polled 1 b := by rw [State.reassert, ← hst]; rfl
    obtain ⟨vs, hvs, hgap⟩ := State.BusyOver.pollAgain (s := { s.polled 1 b with st := .gap }) hfk rfl hbwip hleft hd
    rw [hback] at hvs
    obtain ⟨us, hus, hmore⟩ := ih (s := s.polled 1 b) hl hst hfk ha hrest (fun c hc => hw c (List.mem_cons_of_mem b hc))
      (by rw [hpolls]; exact (by omega : s.polls.toNat + 1 + bs.length + 1 ≤ s.limit.toNat))
    rw [State.polled_polled, Nat.add_comm 1] at hus
    exact ⟨_, (hws.append hvs).append hus, (hsent.append hgap).append hmore⟩

/-- R163, R164: the wait of a WRITE that ends with Ok, under either policy, and what a device sees of it. -/
theorem State.BusyOver.startWait {s : State} {xs : List CycleIn} (hl : s.build.Legal) (ha : s.abort = false)
    (hpolls : s.polls = 0) (h : waitCycles s xs) :
    ∃ ws t sent, s.startWait.BusyOver xs ws t ∧ t.st = .finish ∧ t.res = s.res ∧ Shows ws sent := by
  rcases h with ⟨hp, hx⟩ | ⟨hp, waiting, last, hx, hw, hlast, hlimit⟩
  · by_cases h0 : s.wdelay = 0
    · rw [h0] at hx
      obtain rfl : xs = [] := List.eq_nil_of_length_eq_zero hx.1
      have he : s.startWait = s.toFinish := by simp [State.startWait, hp, h0]
      rw [he]
      exact ⟨[], _, [], .nil _, rfl, rfl, shows_nil⟩
    · have he : s.startWait = s.startDelay := by simp only [State.startWait, hp, if_neg h0]
      have hpos : s.wdelay.toNat ≠ 0 := fun hz => h0 (BitVec.eq_of_toNat_eq hz)
      have hwait := State.BusyOver.wait (s := s.startDelay) (t := s.startDelay.countedDown.toFinish) (.inr (.inl rfl)) rfl hpos
        hx fun _ => rfl
      rw [he]
      exact ⟨_, _, [], hwait, rfl, rfl, shows_replicate_high _⟩
  · have he : s.startWait = s.openFrame .poll := by simp [State.startWait, hp]
    have hlimit' : (s.openFrame .poll).polls.toNat + waiting.length + 1 ≤ (s.openFrame .poll).limit.toNat := by
      change s.polls.toNat + _ + _ ≤ s.limit.toNat
      rw [hpolls]; simpa using hlimit
    obtain ⟨ws, hws, hsent⟩ := State.BusyOver.polls (s := s.openFrame .poll) hl rfl rfl ha hx hw hlast hlimit'
    rw [he]
    exact ⟨ws, _, _, hws, rfl, rfl, hsent⟩

/-! ### Whole commands -/

/-- R122: READ and WRITE are valid for a LEN from 1 to BUF_BYTES. -/
theorem State.validCommand_of_transfer {s : State} (h : s.curOpc = opcRead ∨ s.curOpc = opcWrite) :
    s.validCommand = true ↔ 1 ≤ s.curArg.toNat ∧ s.curArg.toNat ≤ s.build.bufBytes := by
  rcases h with h | h <;> simp [State.validCommand, h]

/-- R122: RDSR is always valid. -/
theorem State.validCommand_of_rdsr {s : State} (h : s.curOpc = opcRdsr) : s.validCommand = true := by
  rw [State.validCommand, h]; rfl

/-- R122 to R135: a valid command is CHECK, its frames and waits, and FINISH. -/
theorem State.BusyOver.command {s t : State} {fk : FrameKind} {c f : CycleIn} {body : List CycleIn} {ws : List WireCycle}
    (hst : s.st = .check) (hv : s.validCommand = true) (hfk : firstFrame s.curOpc = fk) (hc : c.calm = true)
    (hf : f.calm = true) (h : (s.openFrame fk).BusyOver body ws t) (ht : t.st = .finish) :
    s.BusyOver (c :: (body ++ [f])) (.high :: (ws ++ [.high])) t.finishCommand := by
  have hcheck : s.fsmEdge c = s.openFrame fk := by
    simp only [State.fsmEdge, hst, State.checkEdge, hv, if_true, hfk]
  have hfinish : t.fsmEdge f = t.finishCommand := by simp only [State.fsmEdge, ht]
  refine .step hc (by rw [hst]; decide) (State.wire_of_csN (by rw [State.csN, hst]) c) hcheck (h.append ?_)
  exact .step hf (by rw [ht]; decide) (State.wire_of_csN (by rw [State.csN, ht]) f) hfinish (.nil _)

/-- R122: an invalid command is CHECK and FINISH. -/
theorem State.BusyOver.rejected {s : State} {c f : CycleIn} (hst : s.st = .check) (hv : ¬ s.validCommand = true)
    (hc : c.calm = true) (hf : f.calm = true) :
    s.BusyOver [c, f] [.high, .high] (s.raise .invalidArgument).finishCommand := by
  have hcheck : s.fsmEdge c = s.raise .invalidArgument := by
    simp only [State.fsmEdge, hst, State.checkEdge, if_neg hv]
  refine .step hc (by rw [hst]; decide) (State.wire_of_csN (by rw [State.csN, hst]) c) hcheck ?_
  exact .step hf nofun (State.wire_of_csN rfl f) rfl (.nil _)

/-! ### The host's cycles -/

/-- A cycle of an idle block in which the host makes the access `a`, and what a device sees of it: nothing. -/
theorem State.hostCycle_of_idle {s : State} {x : CycleIn} {rest : List CycleIn} (hst : s.st = .idle) (hp : s.pending = x :: rest)
    (hr : x.rst = false) (a : HostAccess) :
    ∃ r, s.hostCycle a = (s.hostEffect a).withEnv rest (s.log ++ [r]) ∧ r.wire s.build.transportHasErr = .high := by
  have hin : s.currentInputs = x := by simp [State.currentInputs, hp]
  refine ⟨⟨{ x with host := a }, s.outputs { x with host := a }⟩, ?_, State.wire_of_csN (by rw [State.csN, hst]) _⟩
  rw [State.hostCycle, hin, hp, List.tail_cons, State.cycle, State.edge_withHost_of_idle hr hst]
  rfl

/-- R100: while the block is busy, the host that waits reads STAT and changes nothing. -/
theorem State.BusyOver.waitIdle {s t : State} {xs : List CycleIn} {ws : List WireCycle} (h : s.BusyOver xs ws t)
    (p : List CycleIn) (l : List CycleRecord) (ys : List CycleIn) :
    ∃ rs, (s.withEnv p l).waitIdle (xs ++ ys) = (t.withEnv p (l ++ rs)).waitIdle ys ∧
      rs.map (CycleRecord.wire s.build.transportHasErr) = ws := by
  induction h generalizing l with
  | nil s => exact ⟨[], by rw [List.append_nil]; rfl, rfl⟩
  | @cons s t x xs ws calm busy _ ih =>
    obtain ⟨hrst, -⟩ := x.calm_iff.mp calm
    set r : CycleRecord := ⟨{ x with host := hr 0x004 }, s.outputs { x with host := hr 0x004 }⟩
    have hcycle : (s.withEnv p l).cycle { x with host := hr 0x004 } = (s.fsmEdge x).withEnv p (l ++ [r]) := by
      rw [State.cycle, State.edge_withHost_of_busy (s := s.withEnv p l) hrst busy, hr, State.hostEffect_read,
        State.fsmEdge_withEnv]
      rfl
    obtain ⟨rs, he, hws⟩ := ih (l ++ [r])
    refine ⟨r :: rs, ?_, ?_⟩
    · rw [List.append_assoc, List.singleton_append] at he
      rw [← he, ← hcycle]
      exact if_neg busy
    · rw [State.fsmEdge_build] at hws
      rw [List.map_cons, hws]
      rfl

/-- R100: the host that waits finds the block idle, and keeps the value of STAT. -/
theorem State.waitIdle_of_idle {s : State} (hst : s.st = .idle) {y : CycleIn} (hy : y.rst = false) (p : List CycleIn)
    (l : List CycleRecord) (rest : List CycleIn) :
    ∃ r, (s.withEnv p l).waitIdle (y :: rest) = (s.withEnv rest (l ++ [r]), some s.statWord) ∧
      r.wire s.build.transportHasErr = .high := by
  set r : CycleRecord := ⟨{ y with host := hr 0x004 }, s.outputs { y with host := hr 0x004 }⟩
  have hcycle : (s.withEnv p l).cycle { y with host := hr 0x004 } = s.withEnv p (l ++ [r]) := by
    rw [State.cycle, State.edge_withHost_of_idle (s := s.withEnv p l) hy hst, hr, State.hostEffect_read]
    rfl
  refine ⟨r, ?_, State.wire_of_csN (by rw [State.csN, hst]) _⟩
  exact (if_pos hst).trans (by rw [hcycle]; rfl)

/-- R100 `cmd i; wait_idle`: the cycle of the write, the cycles `xs` in which the command runs, and the cycle of the last read of
STAT. -/
theorem State.runCommand_of_busyOver {s t : State} {i : Instr} {x y : CycleIn} {xs rest : List CycleIn} {ws : List WireCycle}
    (hst : s.st = .idle) (hp : s.pending = x :: (xs ++ y :: rest)) (hx : x.rst = false) (hy : y.rst = false)
    (h : (s.accept (encode i)).BusyOver xs ws t) (ht : t.st = .idle) :
    ∃ rs, s.runCommand i = (t.withEnv rest (s.log ++ rs), some t.statWord) ∧
      rs.map (CycleRecord.wire s.build.transportHasErr) = .high :: (ws ++ [.high]) := by
  obtain ⟨r, hcmd, hr⟩ := State.hostCycle_of_idle hst hp hx (cmd i)
  rw [cmd, State.hostEffect_hw_cmd hst] at hcmd
  obtain ⟨rs, hrun, hrs⟩ := h.waitIdle (xs ++ y :: rest) (s.log ++ [r]) (y :: rest)
  obtain ⟨r', hlast, hr'⟩ := State.waitIdle_of_idle ht hy (xs ++ y :: rest) (s.log ++ [r] ++ rs) rest
  rw [h.build, State.accept_build] at hr'
  rw [State.accept_build] at hrs
  refine ⟨r :: (rs ++ [r']), ?_, ?_⟩
  · rw [State.runCommand, cmd, hcmd]
    change ((s.accept (encode i)).withEnv _ _).waitIdle (xs ++ y :: rest) = _
    rw [hrun, hlast, List.append_assoc, List.append_assoc, List.singleton_append]
  · rw [List.map_cons, List.map_append, hr, hrs, List.map_singleton, hr']

end Sys2Proof.Machine
end

/-! SUPPORT. The words of BUF, as the host's sequences of spec/30_encoding.md rule R100 read and write them. -/

section
namespace Sys2Proof.Machine

/-! ### The bytes of BUF words -/

/-- R63: the lanes of a little-endian word. -/
theorem extractLsb'_lanes (f : Nat → Byte) (k : Nat) {j : Nat} (hj : j < 4) :
    (f (4 * k + 3) ++ f (4 * k + 2) ++ f (4 * k + 1) ++ f (4 * k)).extractLsb' (8 * j) 8 = f (4 * k + j) := by
  match j, hj with
  | 0, _ =>
    simp (disch := decide) only [BitVec.extractLsb'_append_eq_of_add_le, BitVec.extractLsb'_eq_self, Nat.mul_zero, Nat.add_zero]
  | 1, _ | 2, _ | 3, _ =>
    simp (disch := decide) only [BitVec.extractLsb'_append_eq_of_le, BitVec.extractLsb'_append_eq_of_add_le,
      BitVec.extractLsb'_eq_self, Nat.reduceMul, Nat.reduceSub, Nat.mul_one, Nat.sub_self]

theorem bytesOfWords_append (ws vs : List Word) : bytesOfWords (ws ++ vs) = bytesOfWords ws ++ bytesOfWords vs := by
  induction ws with
  | nil => rfl
  | cons w ws ih => simp only [List.cons_append, bytesOfWords, ih]

/-- R37, R63: the bytes of the first `n` words of BUF are its first `4n` lanes. -/
theorem State.bytesOfWords_bufWord (s : State) (n : Nat) :
    bytesOfWords ((List.range n).map s.bufWord) = (List.range (4 * n)).map s.bufLane := by
  induction n with
  | zero => rfl
  | succ n ih =>
    have hlane {j : Nat} (hj : j < 4) : (s.bufWord n).extractLsb' (8 * j) 8 = s.bufLane (4 * n + j) := s.lane_bufWord n hj
    have hword : bytesOfWords [s.bufWord n] = (List.range 4).map fun j => s.bufLane (4 * n + j) := by
      simp only [bytesOfWords, List.range_succ, List.range_zero, List.nil_append, List.cons_append, List.map_cons, List.map_nil,
        ← hlane (j := 0) (by decide), ← hlane (j := 1) (by decide), ← hlane (j := 2) (by decide),
        ← hlane (j := 3) (by decide)]
    rw [List.range_succ, List.map_append, bytesOfWords_append, ih, List.map_singleton, hword, Nat.mul_succ, List.range_add,
      List.map_append]
    rfl

/-- The bytes that the words of BUF bring, for data that stands in BUF from its first byte on. -/
theorem State.take_bytesOfWords {s : State} {data : List Byte} (hlen : data.length ≤ s.build.bufBytes)
    (hdata : ∀ i (h : i < data.length), s.buf.read i = data[i]) :
    (bytesOfWords ((List.range ((data.length + 3) / 4)).map s.bufWord)).take data.length = data := by
  rw [s.bytesOfWords_bufWord, ← List.map_take, List.take_range, Nat.min_eq_left (by omega)]
  refine List.ext_getElem (by simp) fun i hi hd => ?_
  rw [List.getElem_map, List.getElem_range, State.bufLane, if_pos (by omega), hdata i hd]

/-! ### The sequences of BUF accesses -/

/-- A list without resets, cut before its last cycle. -/
theorem noReset_concat {hs : List CycleIn} {n : Nat} (hn : hs.length = n + 1) (hr : noReset hs) :
    ∃ hs' h, hs = hs' ++ [h] ∧ hs'.length = n ∧ noReset hs' ∧ h.rst = false := by
  obtain rfl | ⟨hs', h, rfl⟩ := List.eq_nil_or_concat' hs
  · cases hn
  · exact ⟨hs', h, rfl, by simpa using hn, fun x hx => hr x (by simp [hx]), hr h (by simp)⟩

theorem State.withEnv_self {s : State} {p : List CycleIn} (h : s.pending = p) : s.withEnv p s.log = s := by
  rw [← h]; rfl

/-- R100: the reads of the first `n` words of BUF from an idle block. -/
theorem State.readWords_of_idle {s : State} {n : Nat} {hs rest : List CycleIn} (hst : s.st = .idle) (hn : hs.length = n)
    (hrs : noReset hs) (h64 : n ≤ 64) (hb : n ≤ (s.build.bufBytes + 3) / 4) (hp : s.pending = hs ++ rest) :
    ∃ l, s.readWords n = (s.withEnv rest l, some ((List.range n).map s.bufWord)) := by
  induction n generalizing hs rest with
  | zero =>
    obtain rfl := List.eq_nil_of_length_eq_zero hn
    exact ⟨s.log, by rw [State.withEnv_self (p := rest) hp]; rfl⟩
  | succ n ih =>
    obtain ⟨hs', h, rfl, hn', hrs', hh⟩ := noReset_concat hn hrs
    obtain ⟨l, hl⟩ := ih hn' hrs' (by omega) (by omega) (rest := h :: rest)
      (by rw [hp, List.append_assoc, List.singleton_append])
    obtain ⟨r, he, -⟩ := State.hostCycle_of_idle (s := s.withEnv (h :: rest) l) hst rfl hh (hr (bufOffset n))
    have hresp : (s.withEnv (h :: rest) l).respond (hr (bufOffset n)) = some (.data (s.bufWord n)) :=
      State.respond_read (s := s.withEnv (h :: rest) l) (r := .bufWord n) (hostReg_bufOffset h64 hb)
    refine ⟨l ++ [r], ?_⟩
    rw [State.readWords, hl, List.range_succ, List.map_append]
    simp only [he, hresp]
    rfl

/-- The state with another BUF. -/
def State.withBuf (s : State) (m : Memory) : State := { s with buf := m }

/-- R31, R37: the write of a BUF word by an idle block. A word past BUF is turned away, and none of its bytes exists. -/
theorem State.hostEffect_hw_bufOffset {s : State} (hst : s.st = .idle) {n : Nat} (h64 : n < 64) (v : Word) :
    ∃ m, s.hostEffect (hw (bufOffset n) v) = s.withBuf m ∧
      (s.buf.wf → m.wf ∧ ∀ i, m.read i =
        if i / 4 = n ∧ i < s.build.bufBytes then v.extractLsb' (8 * (i % 4)) 8 else s.buf.read i) := by
  by_cases hn : n < (s.build.bufBytes + 3) / 4
  · have hreg : hostTarget s.build (bufOffset n) 4 = some (.bufWord n) := hostReg_bufOffset h64 hn
    exact ⟨(s.setBufWord n v).buf, State.hostEffect_write_of_idle v hst hreg,
      fun hwf => ⟨State.wf_setBufWord hwf n v, State.read_setBufWord hwf n v⟩⟩
  · have hreg : hostTarget s.build (bufOffset n) 4 = none := by
      refine (hostReg_eq_none_iff _ _).mpr (.inr (.inr ?_))
      rw [toNat_bufOffset h64]; omega
    refine ⟨s.buf, State.hostEffect_write_of_none v hreg, fun hwf => ⟨hwf, fun i => ?_⟩⟩
    rw [if_neg (by omega)]

/-- R100: the writes of the first `n` words of some data to an idle block: the bytes are in BUF, as far as BUF goes. -/
theorem State.writeWords_of_idle {s : State} (data : List Byte) (above : Nat → Byte) {n : Nat} {hs rest : List CycleIn}
    (hst : s.st = .idle) (hn : hs.length = n) (hrs : noReset hs) (h64 : n ≤ 64) (hp : s.pending = hs ++ rest) :
    ∃ m rs, s.writeWords data above n = (s.withBuf m).withEnv rest (s.log ++ rs) ∧
      rs.map (CycleRecord.wire s.build.transportHasErr) = List.replicate n .high ∧
      (s.buf.wf → m.wf ∧ ∀ i, i < 4 * n → i < s.build.bufBytes → m.read i = dataByte data above i) := by
  induction n generalizing hs rest with
  | zero =>
    obtain rfl := List.eq_nil_of_length_eq_zero hn
    refine ⟨s.buf, [], ?_, rfl, fun hwf => ⟨hwf, fun i hi => absurd hi (by omega)⟩⟩
    rw [List.append_nil]
    exact (State.withEnv_self hp).symm
  | succ n ih =>
    obtain ⟨hs', h, rfl, hn', hrs', hh⟩ := noReset_concat hn hrs
    obtain ⟨m, rs, hl, hwire, hm⟩ := ih hn' hrs' (by omega) (rest := h :: rest)
      (by rw [hp, List.append_assoc, List.singleton_append])
    set u := (s.withBuf m).withEnv (h :: rest) (s.log ++ rs)
    obtain ⟨r, he, hr⟩ := State.hostCycle_of_idle (s := u) hst rfl hh (hw (bufOffset n) (wordOfBytes data above n))
    obtain ⟨m', heff, hm'⟩ := State.hostEffect_hw_bufOffset (s := u) hst (n := n) (by omega) (wordOfBytes data above n)
    refine ⟨m', rs ++ [r], ?_, ?_, fun hwf => ?_⟩
    · rw [State.writeWords, hl, he, heff, ← List.append_assoc]; rfl
    · rw [List.map_append, hwire, List.replicate_succ', ← hr]; rfl
    · obtain ⟨hmwf, hread⟩ := hm hwf
      obtain ⟨hmwf', hread'⟩ := hm' hmwf
      refine ⟨hmwf', fun i hi hib => ?_⟩
      rw [hread']
      by_cases hin : i / 4 = n
      · have hi4 : 4 * n + i % 4 = i := by omega
        rw [if_pos ⟨hin, hib⟩, wordOfBytes, extractLsb'_lanes (dataByte data above) n (Nat.mod_lt i (by decide)), hi4]
      · rw [if_neg (fun hc => hin hc.1)]
        exact hread i (by omega) hib

end Sys2Proof.Machine
end

/-! SUPPORT. READ, WRITE and RDSR over the cycles in which the block is busy, and the host's sequences of spec/30_encoding.md rule
R100 (obligations O56 to O58). -/

section
namespace Sys2Proof.Machine

/-! ### The three commands -/

/-- R97: the bytes of a frame with an address, header and data. -/
theorem State.map_slotByte_header {s : State} {fk : FrameKind} (n : Nat) {a b c : Byte} {data : Nat → Byte}
    (h0 : s.slotByte fk 0 = a) (h1 : s.slotByte fk 1 = b) (h2 : s.slotByte fk 2 = c)
    (hdata : ∀ k, s.slotByte fk (k + 3) = data k) :
    (List.range (3 + n)).map (s.slotByte fk) = a :: b :: c :: (List.range n).map data := by
  rw [List.range_add, List.map_append, List.map_map]
  have htail : s.slotByte fk ∘ (3 + ·) = data := by
    funext k; rw [Function.comp, Nat.add_comm]; exact hdata k
  rw [htail, ← h0, ← h1, ← h2]
  rfl

/-- R182: RDSR, from CHECK to the end. -/
theorem State.BusyOver.rdsr {s : State} {c f : CycleIn} {fr : List CycleIn} {b status : Byte} (hl : s.build.Legal)
    (hst : s.st = .check) (hopc : s.curOpc = opcRdsr) (ha : s.abort = false) (hc : c.calm = true) (hf : f.calm = true)
    (hfr : frameCycles s.build.csGap.toNat [b, status] fr) :
    ∃ ws, s.BusyOver (c :: (fr ++ [f])) ws ({ s with fk := .rdsr, si := 1, cnt := 1, sr := status } : State).finishCommand ∧
      Shows ws [[0x05, 0x00]] := by
  obtain ⟨ws, hws, hsent⟩ := State.BusyOver.frame (s := s.openFrame .rdsr) hl rfl rfl hfr
  have he : ((s.openFrame .rdsr).assertEdge.exchange [b, status]).countedDown.afterGap =
      { s with fk := .rdsr, si := 1, cnt := 1, sr := status, st := .finish } := by
    rw [State.exchange_status (s := (s.openFrame .rdsr).assertEdge) (.inl rfl) rfl]
    exact State.afterGap_of_only ha nofun nofun nofun
  rw [he] at hws
  have hbusy := State.BusyOver.command hst (State.validCommand_of_rdsr hopc) (by rw [hopc]; rfl) hc hf hws rfl
  exact ⟨_, hbusy, hsent.within_high⟩

/-- R160: READ, from CHECK to the end. -/
theorem State.BusyOver.read {s : State} {c f : CycleIn} {fr : List CycleIn} {hdr data : List Byte} (hl : s.build.Legal)
    (hst : s.st = .check) (hopc : s.curOpc = opcRead) (ha : s.abort = false) (hwf : s.stage.wf)
    (harg : s.curArg.toNat = data.length) (h1 : 1 ≤ data.length) (hb : data.length ≤ s.build.bufBytes)
    (hc : c.calm = true) (hf : f.calm = true) (hhdr : hdr.length = 3)
    (hfr : frameCycles s.build.csGap.toNat (hdr ++ data) fr) :
    ∃ ws si stage, s.BusyOver (c :: (fr ++ [f])) ws
        ({ ((s.openFrame .read).staged si stage).commitStage data.length with cnt := 1 } : State).finishCommand ∧
      Shows ws [0x03 :: addrHigh s.curAddr :: addrLow s.curAddr :: List.replicate data.length 0x00] ∧
      ∀ i (h : i < data.length), stage.read i = data[i] := by
  have hflen : (s.openFrame .read).flen .read = 3 + data.length := congrArg (3 + ·) harg
  have hlen : (hdr ++ data).length = 3 + data.length := by rw [List.length_append, hhdr]
  have hne : hdr ++ data ≠ [] := List.ne_nil_of_length_pos (by omega)
  obtain ⟨ws, hws, hsent⟩ := State.BusyOver.frame (s := s.openFrame .read) hl rfl (hlen.trans hflen.symm) hfr
  obtain ⟨si, stage, he, hstage⟩ := State.exchange_read (s := (s.openFrame .read).assertEdge) rfl hwf
    (harg.trans_le hb) hne ((Nat.zero_add _).trans (hlen.trans hflen.symm))
  have he : ((s.openFrame .read).assertEdge.exchange (hdr ++ data)).countedDown.afterGap =
      { ((s.openFrame .read).staged si stage).commitStage data.length with cnt := 1, st := .finish } := by
    rw [he, ← harg]
    exact State.afterGap_of_only ha nofun nofun nofun
  rw [he] at hws
  have hv : s.validCommand = true := (State.validCommand_of_transfer (.inl hopc)).mpr (by omega)
  have hbusy := State.BusyOver.command hst hv (by rw [hopc]; rfl) hc hf hws rfl
  have hbytes := State.map_slotByte_header (s := s.openFrame .read) (fk := .read) data.length rfl rfl rfl (data := fun _ => 0x00)
    fun _ => rfl
  change Shows ws [(List.range ((s.openFrame .read).flen .read)).map ((s.openFrame .read).slotByte .read)] at hsent
  rw [hflen, hbytes, List.map_const', List.length_range] at hsent
  refine ⟨_, si, stage, hbusy, hsent.within_high, fun i hi => ?_⟩
  have hlast : i + 3 < (hdr ++ data).length := by omega
  have hread := hstage i
  change _ = if 0 ≤ i + 3 then (hdr ++ data).getD (i + 3 - 0) _ else _ at hread
  rw [hread, if_pos (Nat.zero_le _), Nat.sub_zero, List.getD_eq_getElem _ _ hlast, List.getElem_append_right (by omega)]
  simp [hhdr]

/-- R162 to R164: WRITE, from CHECK to the end. -/
theorem State.BusyOver.write {s : State} {c f : CycleIn} {en fr d : List CycleIn} {e : Byte} {rx : List Byte} {n : Nat}
    (hl : s.build.Legal) (hst : s.st = .check) (hopc : s.curOpc = opcWrite) (ha : s.abort = false) (hpolls : s.polls = 0)
    (harg : s.curArg.toNat = n) (h1 : 1 ≤ n) (hb : n ≤ s.build.bufBytes)
    (hc : c.calm = true) (hf : f.calm = true) (hen : frameCycles s.build.csGap.toNat [e] en)
    (hrx : rx.length = 3 + n) (hfr : frameCycles s.build.csGap.toNat rx fr) (hd : waitCycles s d) :
    ∃ ws t sent, s.BusyOver (c :: (en ++ fr ++ d ++ [f])) ws t ∧ t.st = .idle ∧ t.result = s.res ∧
      Shows ws ([0x06] :: (0x02 :: addrHigh s.curAddr :: addrLow s.curAddr :: (List.range n).map s.buf.read) :: sent) := by
  have hv : s.validCommand = true := (State.validCommand_of_transfer (.inr hopc)).mpr (by omega)
  obtain ⟨ws, si, hws, hsent⟩ := State.BusyOver.frame_of_discards (s := s.openFrame .wren) hl rfl trivial rfl hen
  set u : State := { s.openFrame .wren with si := si, cnt := 1, st := .gap }
  rw [State.afterGap_of_enable (s := u) ha rfl hopc] at hws
  have hflen : (u.openFrame .write).flen .write = 3 + n := congrArg (3 + ·) harg
  obtain ⟨vs, si', hvs, hsent'⟩ :=
    State.BusyOver.frame_of_discards (s := u.openFrame .write) hl rfl trivial (hrx.trans hflen.symm) hfr
  set v : State := { u.openFrame .write with si := si', cnt := 1, st := .gap }
  rw [State.afterGap_of_write (s := v) ha rfl] at hvs
  have hbytes := State.map_slotByte_header (s := u.openFrame .write) (fk := .write) n rfl rfl rfl (data := s.buf.read)
    fun _ => rfl
  change Shows vs [(List.range ((u.openFrame .write).flen .write)).map ((u.openFrame .write).slotByte .write)] at hsent'
  rw [hflen, hbytes] at hsent'
  obtain ⟨us, t, sent, hus, ht, hres, hmore⟩ := State.BusyOver.startWait (s := v) hl ha hpolls hd
  have hbusy := State.BusyOver.command hst hv (by rw [hopc]; rfl) hc hf ((hws.append hvs).append hus) ht
  exact ⟨_, t.finishCommand, sent, hbusy, rfl, hres, ((hsent.append hsent').append hmore).within_high⟩

/-! ### What the host reads from STAT -/

/-- R35: the result field that the host cuts out of STAT. -/
theorem State.statResult_statWord (s : State) : statResult s.statWord = s.result.code := by
  obtain ⟨-, -, hresult, -⟩ := statWordFields s
  exact hresult

/-- R35: the status byte that the host cuts out of STAT. -/
theorem State.sr_statWord (s : State) : s.statWord.extractLsb' 8 8 = s.sr := by
  obtain ⟨-, -, -, -, -, -, -, hsr, -⟩ := statWordFields s
  exact hsr

theorem State.resultOf_statWord {α : Type} {s : State} (h : s.result = .ok) (v : α) : resultOf s.statWord v = .ok v := by
  rw [resultOf, s.statResult_statWord, h]; rfl

/-- Settles O58: RDSR from CHECK to the end, and the host's last read of STAT. -/
theorem readStatusGivesTheStatusByte : Obligations.ReadStatusGivesTheStatusByte := by
  intro s x c f y fr rest b status hl hst hp hx hc hf hy hfr
  obtain ⟨hopc, -, -⟩ := Laws.EncodedFields.rdsr 0 0
  obtain ⟨ws, hws, -⟩ := State.BusyOver.rdsr (s := s.accept (encode (.rdsr 0 0))) hl rfl hopc rfl hc hf hfr
  obtain ⟨rs, hrun, -⟩ := State.runCommand_of_busyOver (rest := rest) hst (by rw [hp]; simp) hx hy hws rfl
  set t := State.finishCommand _
  rw [State.readStatus, hrun]
  exact ⟨congrArg some ((State.resultOf_statWord rfl _).trans (congrArg _ t.sr_statWord)), rfl, rfl⟩

/-! ### readEeprom and writeEeprom -/

/-- R9, R92: what fits BUF fits LEN. -/
theorem le_len_max {b : Build} {n : Nat} (hl : b.Legal) (h : n ≤ b.bufBytes) : n ≤ 0xFF := by
  obtain ⟨-, hmax, -, -⟩ := hl
  omega

/-- R22, R92: the operands of a READ or WRITE that has been accepted. -/
theorem State.operands_accept (s : State) {i : Instr} {addr : Addr} {len : Nat} (hi : i = .read addr len ∨ i = .write addr len)
    (hlen : len ≤ 0xFF) : (s.accept (encode i)).curAddr = addr ∧ (s.accept (encode i)).curArg.toNat = len := by
  have hmod : (BitVec.ofNat 8 len).toNat = len := by rw [BitVec.toNat_ofNat]; omega
  rcases hi with rfl | rfl
  · obtain ⟨-, haddr, harg⟩ := Laws.EncodedFields.read addr len
    exact ⟨haddr, (congrArg BitVec.toNat harg).trans hmod⟩
  · obtain ⟨-, haddr, harg⟩ := Laws.EncodedFields.write addr len
    exact ⟨haddr, (congrArg BitVec.toNat harg).trans hmod⟩

/-- R100, R122: a READ or WRITE with a LEN out of its range ends with InvalidArgument, and a device sees nothing of it. -/
theorem State.runCommand_of_invalid {s : State} {i : Instr} {addr : Addr} {len : Nat} {x c f y : CycleIn}
    {rest : List CycleIn} (hi : i = .read addr len ∨ i = .write addr len) (hst : s.st = .idle)
    (hlen : len = 0 ∨ (s.build.bufBytes < len ∧ len ≤ 0xFF)) (hp : s.pending = x :: c :: f :: y :: rest)
    (hx : x.rst = false) (hc : c.calm = true) (hf : f.calm = true) (hy : y.rst = false) :
    ∃ t v rs, s.runCommand i = (t, some v) ∧ statResult v = 1 ∧ t.pending = rest ∧ t.log = s.log ++ rs ∧
      rs.map (CycleRecord.wire s.build.transportHasErr) = List.replicate 4 .high := by
  have hopc : (s.accept (encode i)).curOpc = opcRead ∨ (s.accept (encode i)).curOpc = opcWrite := by
    rcases hi with rfl | rfl
    · exact .inl (Laws.EncodedFields.read addr len).1
    · exact .inr (Laws.EncodedFields.write addr len).1
  obtain ⟨-, harg⟩ := s.operands_accept hi (by omega)
  have hv : ¬ (s.accept (encode i)).validCommand = true := by
    rw [State.validCommand_of_transfer hopc, harg, State.accept_build]
    omega
  obtain ⟨rs, hrun, hrs⟩ := State.runCommand_of_busyOver hst hp hx hy (State.BusyOver.rejected rfl hv hc hf) rfl
  exact ⟨_, _, rs, hrun, State.statResult_statWord _, rfl, rfl, hrs⟩

/-- Settles O56: a valid READ leaves the received bytes in BUF, where the host reads them word by word; an invalid one ends with
InvalidArgument. -/
theorem readEepromGivesTheBytes : Obligations.ReadEepromGivesTheBytes := by
  refine ⟨?valid, ?invalid⟩
  case valid =>
    intro s addr x c f y fr hs rest hdr data hl hswf hbwf hst h1 hb hp hx hc hf hy hhdr hfr hlen hhs
    have h255 := le_len_max hl hb
    obtain ⟨hopc, -, -⟩ := Laws.EncodedFields.read addr data.length
    obtain ⟨-, harg⟩ := s.operands_accept (.inl rfl) h255 (addr := addr)
    obtain ⟨ws, si, stage, hws, -, hstage⟩ :=
      State.BusyOver.read (s := s.accept (encode (.read addr data.length))) hl rfl hopc rfl hswf harg h1 hb hc hf hhdr hfr
    obtain ⟨rs, hrun, -⟩ := State.runCommand_of_busyOver (rest := hs ++ rest) hst (by rw [hp]; simp) hx hy hws rfl
    set t := State.finishCommand _
    have hbuf (i : Nat) (hi : i < data.length) : t.buf.read i = data[i] := by
      have hread := State.read_commitStage (s := ((s.accept (encode (.read addr data.length))).openFrame .read).staged si stage)
        hbwf data.length i
      rw [if_pos ⟨hi, hi.trans_le hb⟩] at hread
      exact hread.trans (hstage i hi)
    have hok : statResult t.statWord = 0 := t.statResult_statWord
    obtain ⟨l, hwords⟩ := State.readWords_of_idle (s := t.withEnv (hs ++ rest) (s.log ++ rs)) rfl hlen hhs (by omega)
      (Nat.div_le_div_right (Nat.add_le_add_right hb 3)) rfl
    have hbytes := State.take_bytesOfWords (s := t.withEnv (hs ++ rest) (s.log ++ rs)) hb hbuf
    have hrange : lengthInRange data.length = true := decide_eq_true h255
    simp only [State.readEeprom, hrange, if_true, hrun, hok, hwords, hbytes]
    exact ⟨trivial, rfl⟩
  case invalid =>
    intro s addr len x c f y rest hst hlen hp hx hc hf hy
    obtain ⟨t, v, rs, hrun, hv, hpend, -, -⟩ := State.runCommand_of_invalid (.inl rfl) hst hlen hp hx hc hf hy (addr := addr)
    have hrange : lengthInRange len = true := decide_eq_true (by omega)
    have hne : ¬ (1 : BitVec 2) = 0 := by decide
    simp only [State.readEeprom, hrange, if_true, hrun, hv, if_neg hne]
    exact ⟨trivial, hpend⟩

/-- The frames between a state and a later one whose log is given. -/
theorem framesBetween_eq {s t : State} {rs : List CycleRecord} (h : t.log = s.log ++ rs) :
    framesBetween s t = framesOnWire none (rs.map (CycleRecord.wire s.build.transportHasErr)) := by
  rw [framesBetween, elapsed, h, List.drop_left, frames, framesFrom_eq_framesOnWire]

/-- The first bytes of BUF are the data, if they are so one by one. -/
theorem map_read_eq {m : Memory} {data : List Byte} (h : ∀ i (hi : i < data.length), m.read i = data[i]) :
    (List.range data.length).map m.read = data := by
  refine List.ext_getElem (by simp) fun i hi hd => ?_
  rw [List.getElem_map, List.getElem_range, h i hd]

/-- Settles O57: the writes put the data into BUF, from where a valid WRITE sends them after the write-enable frame; an invalid
one ends with InvalidArgument. -/
theorem writeEepromSendsTheBytes : Obligations.WriteEepromSendsTheBytes := by
  refine ⟨?valid, ?invalid⟩
  case valid =>
    intro s addr data above x c f y hs en fr d rest e rx hl hbwf hst h1 hb hp hlen hhs hx hc hf hy hen hrx hfr hd
    have h255 := le_len_max hl hb
    obtain ⟨m, rs, hwrite, hwire, hm⟩ := State.writeWords_of_idle data above hst hlen hhs (by omega) hp
    obtain ⟨-, hread⟩ := hm hbwf
    have hdata (i : Nat) (hi : i < data.length) : m.read i = data[i] := by
      rw [hread i (by omega) (by omega), dataByte, List.getD_eq_getElem _ _ hi]
    set u := (s.withBuf m).withEnv (x :: c :: (en ++ fr ++ d ++ f :: y :: rest)) (s.log ++ rs) with hu
    obtain ⟨hopc, -, -⟩ := Laws.EncodedFields.write addr data.length
    obtain ⟨haddr, harg⟩ := u.operands_accept (.inr rfl) h255 (addr := addr)
    obtain ⟨ws, t, sent, hws, ht, hres, hsent⟩ :=
      State.BusyOver.write (s := u.accept (encode (.write addr data.length))) hl rfl hopc rfl rfl harg h1 hb hc hf hen hrx hfr hd
    obtain ⟨rs', hrun, hrs'⟩ := State.runCommand_of_busyOver (s := u) (rest := rest) hst (by rw [hu]; simp) hx hy hws ht
    have hrange : lengthInRange data.length = true := decide_eq_true h255
    simp only [State.writeEeprom, hrange, if_true, hwrite, hrun, Option.map_some, State.resultOf_statWord hres]
    refine ⟨trivial, rfl, ?_⟩
    have hlog : (t.withEnv rest (u.log ++ rs')).log = s.log ++ (rs ++ rs') := List.append_assoc _ _ _
    have hshown := ((shows_replicate_high ((data.length + 3) / 4)).append hsent.within_high).frames
    have hbytes : (List.range data.length).map (u.accept (encode (.write addr data.length))).buf.read = data := map_read_eq hdata
    rw [hbytes, haddr] at hshown
    change _ = [[0x06], 0x02 :: addrHigh addr :: addrLow addr :: data]
    have hrs'' : rs'.map (CycleRecord.wire s.build.transportHasErr) = .high :: (ws ++ [.high]) := hrs'
    rw [framesBetween_eq hlog, List.map_append, hwire, hrs'', hshown]
    rfl
  case invalid =>
    intro s addr data above x c f y hs rest hst hlen hp hn hhs hx hc hf hy
    have hcount : data.length = 0 ∨ (s.build.bufBytes < data.length ∧ data.length ≤ 0xFF) :=
      hlen.imp_left List.eq_nil_iff_length_eq_zero.mp
    obtain ⟨m, rs, hwrite, hwire, -⟩ := State.writeWords_of_idle data above hst hn hhs (by omega) hp
    set u := (s.withBuf m).withEnv (x :: c :: f :: y :: rest) (s.log ++ rs)
    obtain ⟨t, v, rs', hrun, hv, hpend, hlog, hwire'⟩ := State.runCommand_of_invalid (s := u) (.inr rfl) hst
      (addr := addr) (len := data.length) hcount rfl hx hc hf hy
    have hrange : lengthInRange data.length = true := decide_eq_true (by omega)
    have hne : ¬ (1 : BitVec 2) = 0 := by decide
    simp only [State.writeEeprom, hrange, if_true, hwrite, hrun, Option.map_some, resultOf, hv, if_neg hne]
    have hlog' : t.log = s.log ++ (rs ++ rs') := hlog.trans (List.append_assoc _ _ _)
    refine ⟨trivial, hpend, ?_⟩
    have hwire'' : rs'.map (CycleRecord.wire s.build.transportHasErr) = List.replicate 4 .high := hwire'
    rw [framesBetween_eq hlog', List.map_append, hwire, hwire'']
    exact List.map_eq_nil_iff.mp ((shows_replicate_high _).append (shows_replicate_high 4)).frames

end Sys2Proof.Machine
end

/-! SUPPORT. The clock edge of spec/40_sequencer.md: the step as one edge, and the transitions of the FSM one by one (obligations
O7, O19 to O24, O27, O29 and O30). -/

section
namespace Sys2Proof.Machine

/-! ### The step as one clock edge -/

/-- R34: an access that issues a command is a 32-bit write of CMD. -/
theorem HostAccess.commandWord?_eq_some_iff (a : HostAccess) (w : Word) : a.commandWord? = some w ↔ a = .write 0x000 4 w := by
  cases a with
  | nothing => simp [HostAccess.commandWord?]
  | read off size => simp [HostAccess.commandWord?]
  | write off size v => simp [HostAccess.commandWord?, and_assoc]

/-- Log 1: a step with a cycle pending is that cycle, if no command runs on after it. -/
theorem State.issue_of_no_run {s : State} {x : CycleIn} {rest : List CycleIn} {w : Word} (hp : s.pending = x :: rest)
    (hx : x.host = hw 0x000 w) (h : rest = [] ∨ s.st ≠ .idle ∨ x.rst = true) :
    s.issue w = (s.cycle x).withPending rest := by
  have hin : { s.currentInputs with host := hw 0x000 w } = x := by rw [State.currentInputs, hp, ← hx]; rfl
  have htail : s.pending.tail = rest := by rw [hp, List.tail_cons]
  by_cases hst : s.st = .idle
  · have hrun : (s.cycle x).runBusy rest = (s.cycle x, rest) := by
      rcases h with rfl | hbusy | hr
      · rfl
      · exact absurd hst hbusy
      · exact State.runBusy_of_idle (by rw [State.cycle_st, State.edge_of_rst hr]; rfl) rest
    rw [State.issue_of_idle hst, hin, htail, hrun]
  · rw [State.issue_of_busy hst, hin, htail]

/-- Settles O7: a step is a cycle, or a command of which no cycle is left to run. -/
theorem stepIsOneClockEdge : Obligations.StepIsOneClockEdge := by
  refine ⟨fun s x rest hp h => ?pending, fun s hp => ?quiet⟩
  case pending =>
    have hin : s.currentInputs = x := by simp [State.currentInputs, hp]
    have hword {w : Word} (hw : s.currentInputs.host.commandWord? = some w) : s.issue w = (s.cycle x).withPending rest := by
      rw [hin, HostAccess.commandWord?_eq_some_iff] at hw
      rcases h with h | h | h | h
      · exact State.issue_of_no_run hp hw (.inl h)
      · exact State.issue_of_no_run hp hw (.inr (.inl h))
      · exact State.issue_of_no_run hp hw (.inr (.inr h))
      · exact absurd hw (h w)
    rcases step_cases s with ⟨-, e⟩ | ⟨w, i, hw, hi, e⟩ | ⟨w, -, hw, -, e⟩ <;> rw [e]
    · rw [State.advance, hin, hp]; rfl
    · obtain ⟨-, rfl⟩ := encodeOfDecodeIsTheWord w i hi
      rw [exec_eq_issue, hword hw]; rfl
    · rw [hword hw]; rfl
  case quiet =>
    have hin : s.currentInputs = CycleIn.quiet := by rw [State.currentInputs, hp]; rfl
    have hstep : step s = .next s.advance := by simp only [step, hin, CycleIn.quiet, HostAccess.commandWord?]
    have hpend : (s.edge CycleIn.quiet).pending = [] := by rw [State.edge_pending, hp]
    rw [hstep, State.advance, hin, hp, State.withPending, State.cycle, List.tail_nil, ← hpend]

/-! ### IDLE and CHECK -/

/-- Settles O19, by what the host can do to an idle block. -/
theorem acceptanceIsTheWayOutOfIdle : Obligations.AcceptanceIsTheWayOutOfIdle := by
  intro s x hst hr
  rw [State.edge_of_idle hr hst]
  refine ⟨fun w hx => hx ▸ State.hostEffect_hw_cmd hst w, fun hx => hx ▸ s.hostEffect_nothing, fun hx => ?_⟩
  rcases State.hostEffect_of_idle hst x.host with e | ⟨w, hw, -⟩ | ⟨v, e⟩ | ⟨v, e⟩ | ⟨v, e⟩ | ⟨k, v, e⟩
  · rw [e]; exact ⟨hst, rfl⟩
  · exact absurd hw (hx w)
  all_goals rw [e]; exact ⟨hst, rfl⟩

/-- R93, R122: the valid commands, their fields as numbers. -/
theorem State.validCommand_iff (s : State) :
    s.validCommand = true ↔ 1 ≤ s.curOpc.toNat ∧ s.curOpc.toNat ≤ 6 ∧
      (s.curOpc.toNat = 2 ∨ s.curOpc.toNat = 3 → 1 ≤ s.curArg.toNat ∧ s.curArg.toNat ≤ s.build.bufBytes) := by
  have hcodes : s.curOpc ∈ [opcWrsr, opcWrite, opcRead, opcWrdi, opcRdsr, opcWren] ↔
      1 ≤ s.curOpc.toNat ∧ s.curOpc.toNat ≤ 6 := by
    simp only [List.mem_cons, List.not_mem_nil, or_false, opcWrsr, opcWrite, opcRead, opcWrdi, opcRdsr, opcWren]
    bv_omega
  have htransfer : s.curOpc ∈ [opcWrite, opcRead] ↔ s.curOpc.toNat = 2 ∨ s.curOpc.toNat = 3 := by
    simp only [List.mem_cons, List.not_mem_nil, or_false, opcWrite, opcRead]
    bv_omega
  simp only [State.validCommand, hcodes, htransfer, Bool.and_eq_true, Bool.or_eq_true, Bool.not_eq_true', decide_eq_true_eq,
    decide_eq_false_iff_not, ← imp_iff_not_or, and_assoc]

/-- Settles O20: the two ways out of CHECK, and the first frame of each code. -/
theorem checkValidatesTheCommand : Obligations.CheckValidatesTheCommand := by
  intro s x hst hx opc len valid
  have hedge : s.edge x = s.checkEdge := by
    rw [State.edge_of_calm hx (by rw [hst]; decide)]
    simp only [State.fsmEdge, hst]
  have hvalid : s.validCommand = true ↔ valid := s.validCommand_iff
  have hopens {code : Byte} {fk : FrameKind} (hfk : firstFrame code = fk) (hv : valid) (ho : opc = code.toNat) :
      s.edge x = { s with fk := fk, st := .assert } := by
    have hcode : s.curOpc = code := BitVec.eq_of_toNat_eq ho
    rw [hedge, State.checkEdge, if_pos (hvalid.mpr hv), hcode, hfk]
    rfl
  refine ⟨by rw [State.csN, hst], fun hv => ?_, hopens (code := opcRead) rfl, hopens (code := opcWrite) rfl,
    hopens (code := opcWren) rfl, hopens (code := opcWrdi) rfl, hopens (code := opcRdsr) rfl, hopens (code := opcWrsr) rfl⟩
  rw [hedge, State.checkEdge, if_neg (mt hvalid.mp hv)]
  exact ⟨rfl, rfl⟩

/-! ### ASSERT and XFER -/

/-- Settles O21, from the outputs and the edges of the two states. -/
theorem assertThenOfferAndWait : Obligations.AssertThenOfferAndWait := by
  intro s x hx
  refine ⟨fun hst => ?assert, fun hst => ?xfer⟩
  all_goals have busy : s.st ≠ .idle := by rw [hst]; decide
  case assert =>
    refine ⟨by rw [State.csN, hst], by rw [State.xferReq, hst]; rfl, ?_⟩
    rw [State.edge_of_calm hx busy]
    simp only [State.fsmEdge, hst, State.assertEdge]
  case xfer =>
    refine ⟨by rw [State.csN, hst], by rw [State.xferReq, hst]; rfl, if_pos hst, fun hdone => ?_⟩
    rw [State.edge_of_calm hx busy, State.fsmEdge_xfer_waiting hst hdone]

/-- The edge of a calm cycle in XFER. -/
theorem State.edge_of_xfer {s : State} {x : CycleIn} (hst : s.st = .xfer) (hx : x.calm = true) : s.edge x = s.xferEdge x := by
  rw [State.edge_of_calm hx (by rw [hst]; decide)]
  simp only [State.fsmEdge, hst]

/-- R126: XFER with an exchange that does not fail and is not the last of the frame. -/
theorem State.xferEdge_next {s : State} {x : CycleIn} (hdone : x.xferDone = true) (hfails : s.xferFails x = false)
    (hlt : s.si.toNat < s.flen s.fk - 1) : s.xferEdge x = s.takeByte x.xferRx := by
  rw [State.xferEdge, if_neg (by simp [hdone]), if_neg (by simp [hfails]), if_pos hlt, State.takeByte]

/-- Settles O22: the byte is captured, which leaves the slot index, and what the framer reads, alone. -/
theorem byteCompletesNotTheLast : Obligations.ByteCompletesNotTheLast := by
  intro s x hst hx hdone hfails hlt
  rw [State.edge_of_xfer hst hx, State.xferEdge_next hdone hfails hlt]
  have hsi : (s.takeByte x.xferRx).si.toNat = s.si.toNat + 1 := by
    rw [State.takeByte_si, State.toNat_si_succ (by omega)]
  refine ⟨?_, (s.takeByte_st _).trans hst, fun y => ?_⟩
  · have hcap : (s.capture s.fk s.si.toNat x.xferRx).si = s.si := by
      rcases s.capture_cases s.fk s.si.toNat x.xferRx with ⟨-, -, -, e⟩ | ⟨-, -, e⟩ | e <;> rw [e] <;> rfl
    rw [State.takeByte, State.nextSlot, hcap]
  · have hoffer : ((s.takeByte x.xferRx).outputs y).xferTx = _ := if_pos ((s.takeByte_st _).trans hst)
    rw [hoffer, State.takeByte_fk, hsi, State.txByte_congr (s.takeByte_lastCmd _) (s.takeByte_buf _)]

/-- R93, R160: an F_READ frame is a READ's, which is valid for a LEN that fits BUF only. -/
theorem Inv.len_le_of_read {s : State} (h : Inv s) (hf : s.st.inFrame = true) (hk : s.fk = .read) :
    s.curArg.toNat ≤ s.build.bufBytes := by
  obtain ⟨hv, hframe⟩ := h.frameValid hf
  have hopc : s.curOpc = opcRead := by simpa [frameOf, hk] using hframe
  exact ((State.validCommand_of_transfer (.inl hopc)).mp hv).2

/-- R127: one byte of BUF after a whole frame. -/
theorem State.read_frameEffect {s : State} (hwf : s.buf.wf) (fk : FrameKind)
    (hlen : fk = .read → s.curArg.toNat ≤ s.build.bufBytes) (i : Nat) :
    (s.frameEffect fk).buf.read i = if fk = .read ∧ i < s.curArg.toNat then s.stage.read i else s.buf.read i := by
  rcases s.frameEffect_cases fk with ⟨hk, e⟩ | ⟨hk, e⟩ | ⟨hk, -, e⟩ <;> rw [e]
  · have hfits : (i < s.curArg.toNat ∧ i < s.build.bufBytes) ↔ i < s.curArg.toNat :=
      and_iff_left_of_imp fun hi => hi.trans_le (hlen hk)
    simp only [State.read_commitStage hwf, hk, true_and, hfits]
  · rw [if_neg (by simp [hk]), State.countPoll_buf]
  · rw [if_neg (fun h => hk h.1)]

/-- R127: a whole frame counts a poll, and changes BUF and nothing else. -/
theorem State.frameEffect_eq (s : State) (fk : FrameKind) :
    s.frameEffect fk =
      { s with polls := if fk = .poll then s.polls + 1 else s.polls, buf := (s.frameEffect fk).buf } := by
  cases fk <;> rfl

/-- R98: a capture writes STAGE and SR alone. -/
theorem State.capture_frame (s : State) (fk : FrameKind) (k : Nat) (rx : Byte) :
    { s with stage := (s.capture fk k rx).stage, sr := (s.capture fk k rx).sr } = s.capture fk k rx := by
  rcases s.capture_cases fk k rx with ⟨-, -, -, e⟩ | ⟨-, -, e⟩ | e <;> rw [e] <;> rfl

/-- Settles O23: the capture, the effect of the whole frame and its closing, one after the other. -/
theorem lastByteClosesTheFrame : Obligations.LastByteClosesTheFrame := by
  intro s x hinv hst hx hdone hfails hlast c t
  have hfail : s.xferFails x = false := hfails
  have ht : t = (c.frameEffect s.fk).closeFrame := by
    have hedge : s.edge x = s.xferEdge x := State.edge_of_xfer hst hx
    rw [State.xferEdge, if_neg (by simp [hdone]), if_neg (by simp [hfail]), if_neg (by omega)] at hedge
    exact hedge
  obtain ⟨m, b, hc⟩ : ∃ m b, c = { s with stage := m, sr := b } := ⟨_, _, (s.capture_frame s.fk s.si.toNat x.xferRx).symm⟩
  clear_value t c
  subst ht hc
  have hread := State.read_frameEffect (s := { s with stage := m, sr := b }) hinv.bufWf s.fk
    (hinv.len_le_of_read (by rw [hst]; rfl))
  rw [State.frameEffect_eq]
  exact ⟨rfl, rfl, BitVec.toNat_setWidth_of_le (by decide), rfl, rfl, rfl, hread, rfl⟩

/-- Settles O24: a failed exchange takes the error path; where the transport does not drive `xfer_err`, none fails. -/
theorem failedByteAborts : Obligations.FailedByteAborts := by
  intro s x hst hx hdone herr
  refine ⟨fun hdrives => ?fails, fun hnone => ?never⟩
  case fails =>
    have hfails : s.xferFails x = true := by rw [State.xferFails, herr, hdrives]; rfl
    have hedge : s.edge x = s.raiseBusFault := by
      rw [State.edge_of_xfer hst hx, State.xferEdge, if_neg (by simp [hdone]), if_pos hfails]
    rw [hedge]
    exact ⟨rfl, rfl⟩
  case never =>
    have hfails (y : CycleIn) : s.xferFails y = false := by rw [State.xferFails, hnone, Bool.and_false]
    have habort : (s.xferEdge x).abort = s.abort := by
      rcases s.xferEdge_cases x with ⟨-, e⟩ | ⟨-, h, -⟩ | ⟨-, -, -, e⟩ | ⟨-, -, -, e⟩
      · rw [e]
      · rw [hfails] at h; cases h
      · rw [e, ← s.capture_frame s.fk]; rfl
      · rw [e, ← s.capture_frame s.fk, State.frameEffect_eq]; rfl
    rw [State.edge_of_xfer hst hx, State.edge_of_xfer (x := { x with xferErr := false }) hst hx]
    exact ⟨by simp only [State.xferEdge, hfails], habort⟩

/-! ### GAP, FINISH and the transport's answers -/

/-- R130: the wait after a WRITE's data frame, by the policy. -/
theorem State.startWait_eq (s : State) :
    s.startWait = if s.policy = .fixedDelay then (if s.wdelay = 0 then s.toFinish else s.startDelay) else s.openFrame .poll := by
  unfold State.startWait
  cases s.policy <;> rfl

/-- Settles O27: the definitions of R129, R130 and R134 put together. -/
theorem leavingGap : Obligations.LeavingGap := by
  intro s x hst hx
  refine ⟨by rw [State.csN, hst], ?_⟩
  have hedge : s.edge x = s.gapEdge := by
    rw [State.edge_of_calm hx (by rw [hst]; decide)]
    simp only [State.fsmEdge, hst]
  have hpoll : s.fk = .poll → s.openFrame .poll = s.reassert := fun hk => by rw [State.openFrame, ← hk]; rfl
  rw [hedge, State.gapEdge, State.afterGap, State.startWait_eq]
  -- Both sides are the same chain of conditions; only the arm of the polls is written otherwise.
  refine ite_congr rfl (fun _ => rfl) fun _ => ite_congr rfl (fun _ => rfl) fun _ => ite_congr rfl (fun _ => rfl) fun _ =>
    ite_congr rfl (fun _ => rfl) fun _ => ite_congr rfl (fun hk => ?_) fun _ => rfl
  rw [State.pollDecision, hpoll hk, BitVec.ofNat_toNat]
  rfl

/-- Settles O29: the edge of FINISH, and the fields of STAT before and after it. -/
theorem finishReportsTheResult : Obligations.FinishReportsTheResult := by
  intro s x hst hx
  have hedge : s.edge x = s.finishCommand := by
    rw [State.edge_of_calm hx (by rw [hst]; decide)]
    simp only [State.fsmEdge, hst]
  obtain ⟨hbusy, -⟩ := statWordFields s
  obtain ⟨hbusy', hdone', hresult', -⟩ := statWordFields s.finishCommand
  rw [hedge]
  exact ⟨by rw [State.csN, hst], by rw [hbusy, hst]; rfl, rfl, hbusy', hdone', hresult'⟩

/-- Outside XFER the FSM reads nothing of the cycle. -/
theorem State.fsmEdge_of_not_xfer {s : State} (h : s.st ≠ .xfer) (x y : CycleIn) : s.fsmEdge x = s.fsmEdge y := by
  unfold State.fsmEdge
  cases hst : s.st with
  | xfer => exact absurd hst h
  | idle | check | assert | gap | delay | pgap | finish => rfl

/-- R33: the host does not move the FSM of a busy block. -/
theorem State.hostEffect_st_of_busy {s : State} (h : s.st ≠ .idle) (a : HostAccess) : (s.hostEffect a).st = s.st := by
  rcases State.hostEffect_of_busy h a with e | e
  · rw [e]
  · rw [e, State.setDrop_st]

/-- Settles O30: reset, the host's effect and, outside XFER, the FSM do not read the transport's answer. -/
theorem answersOutsideXferAreIgnored : Obligations.AnswersOutsideXferAreIgnored := by
  intro s x d e b hst
  unfold State.edge
  refine ite_congr rfl (fun _ => rfl) fun _ => ite_congr rfl (fun _ => rfl) fun hidle => ?_
  exact State.fsmEdge_of_not_xfer (by rw [State.hostEffect_st_of_busy hidle]; exact hst) _ _

end Sys2Proof.Machine
end

/-! SUPPORT. Busy cycles as a run of the machine: the waits, commands over calm cycles, and the commands that are rejected
(obligations O28 and O40). -/

section
namespace Sys2Proof.Machine

/-! ### Runs over calm cycles -/

/-- A calm cycle of a busy block, with the environment's fields. -/
theorem State.cycle_withEnv_of_calm {s : State} {x : CycleIn} (hx : x.calm = true) (busy : s.st ≠ .idle) (p : List CycleIn)
    (l : List CycleRecord) : (s.withEnv p l).cycle x = (s.fsmEdge x).withEnv p (l ++ [⟨x, s.outputs x⟩]) := by
  rw [State.cycle, State.edge_of_calm (s := s.withEnv p l) hx busy, State.fsmEdge_withEnv]
  rfl

/-- A run goes through the cycles in which the block is busy, and records them. -/
theorem State.BusyOver.runBusy {s t : State} {xs : List CycleIn} {ws : List WireCycle} (h : s.BusyOver xs ws t)
    (p : List CycleIn) (l : List CycleRecord) (ys : List CycleIn) :
    ∃ rs, (s.withEnv p l).runBusy (xs ++ ys) = (t.withEnv p (l ++ rs)).runBusy ys ∧
      rs.map (CycleRecord.wire s.build.transportHasErr) = ws := by
  induction h generalizing l with
  | nil s => exact ⟨[], by rw [List.append_nil, List.nil_append], rfl⟩
  | @cons s t x xs ws calm busy _ ih =>
    obtain ⟨rs, he, hws⟩ := ih (l ++ [⟨x, s.outputs x⟩])
    rw [State.fsmEdge_build] at hws
    refine ⟨⟨x, s.outputs x⟩ :: rs, ?_, by rw [List.map_cons, hws]; rfl⟩
    rw [List.append_assoc, List.singleton_append] at he
    rw [List.cons_append, State.runBusy_cons (s := s.withEnv p l) busy, State.cycle_withEnv_of_calm calm busy, he]

/-- R34, R121: the cycle of the host's write, and the cycles `xs` in which the command then runs to its end. -/
theorem State.issue_of_busyOver {s t : State} {w : Word} {x : CycleIn} {xs rest : List CycleIn} {ws : List WireCycle}
    (hst : s.st = .idle) (hp : s.pending = x :: (xs ++ rest)) (hx : x.rst = false) (h : (s.accept w).BusyOver xs ws t)
    (ht : t.st = .idle) :
    ∃ rs, s.issue w = t.withEnv rest (s.log ++ rs) ∧ rs.map (CycleRecord.wire s.build.transportHasErr) = .high :: ws := by
  have hin : s.currentInputs = x := by rw [State.currentInputs, hp]; rfl
  set y : CycleIn := { x with host := hw 0x000 w }
  have hcycle : s.cycle y = (s.accept w).withEnv s.pending (s.log ++ [⟨y, s.outputs y⟩]) := by
    rw [State.cycle, State.edge_withHost_of_idle hx hst, State.hostEffect_hw_cmd hst]
    rfl
  obtain ⟨rs, hrun, hrs⟩ := h.runBusy s.pending (s.log ++ [⟨y, s.outputs y⟩]) rest
  have hend (l : List CycleRecord) : (t.withEnv s.pending l).runBusy rest = (t.withEnv s.pending l, rest) :=
    State.runBusy_of_idle (s := t.withEnv s.pending l) ht rest
  rw [hend] at hrun
  refine ⟨⟨y, s.outputs y⟩ :: rs, ?_, ?_⟩
  · have htail : s.pending.tail = xs ++ rest := by rw [hp, List.tail_cons]
    rw [State.issue_of_idle hst, hin, htail]
    change ((s.cycle y).runBusy (xs ++ rest)).1.withPending ((s.cycle y).runBusy (xs ++ rest)).2 = _
    rw [hcycle, hrun, List.append_assoc]
    rfl
  · rw [State.accept_build] at hrs
    rw [List.map_cons, hrs]
    exact congrArg (· :: ws) (State.wire_of_csN (by rw [State.csN, hst]) y)

/-! ### The waits -/

/-- Before the last cycle of a wait, only the down-counter changes. -/
theorem State.BusyOver.countDown {s : State} {xs : List CycleIn} (h : s.st.counts) (hn : xs.length + 1 = s.cnt.toNat)
    (hx : ∀ x ∈ xs, x.calm = true) : s.BusyOver xs (List.replicate xs.length .high) s.countedDown := by
  induction xs generalizing s with
  | nil =>
    have hcnt : s.cnt = 1 := BitVec.eq_of_toNat_eq hn.symm
    have hs : s.countedDown = s := by rw [State.countedDown, ← hcnt]
    exact hs.symm ▸ .nil s
  | cons x xs ih =>
    rw [List.length_cons] at hn
    have hc : 1 < s.cnt := by
      rw [BitVec.lt_def, ← hn]; change 1 < _; omega
    have hcnt : xs.length + 1 = s.countDown.cnt.toNat := by
      change _ = (s.cnt - 1).toNat; bv_omega
    exact .step (hx x List.mem_cons_self) h.busy (State.wire_of_csN (State.csN_of_counts h) x) (State.fsmEdge_of_counts h hc x)
      (ih (s := s.countDown) h hcnt fun y hy => hx y (List.mem_cons_of_mem x hy))

/-- R39: what a device does not see has chip-select high. -/
theorem CycleRecord.csN_of_wire_high {hasErr : Bool} {r : CycleRecord} (h : r.wire hasErr = .high) : r.outputs.csN = true := by
  by_contra hcs
  rw [CycleRecord.wire, if_neg hcs] at h
  cases h

/-- Settles O28: the run up to the last cycle of the wait, and the edge of that cycle in each of the three states. -/
theorem countersTimeTheWaits : Obligations.CountersTimeTheWaits := by
  intro s xs x hst hn hxs hx t
  obtain ⟨rs, hrun, hrs⟩ := (State.BusyOver.countDown hst hn hxs).runBusy s.pending s.log []
  rw [List.append_nil, State.withEnv_self rfl, State.runBusy_nil] at hrun
  have ht : t = s.countedDown.withEnv s.pending (s.log ++ rs) := congrArg Prod.fst hrun
  have helapsed : elapsed s t = rs := by rw [ht]; exact List.drop_left
  have htst : t.st = s.st := by rw [ht]; rfl
  have hcnt : ¬ 1 < t.cnt := by rw [ht]; exact (by decide : ¬ (1 : Word) < 1)
  have hedge : t.edge x = t.fsmEdge x := State.edge_of_calm hx (by rw [htst]; exact SeqState.counts.busy hst)
  rw [helapsed]
  refine ⟨by rw [ht]; rfl, by rw [ht]; rfl, fun r hr => ?_, ?_, fun h => ?_, fun h => ?_, fun h => ?_⟩
  · refine CycleRecord.csN_of_wire_high (hasErr := s.build.transportHasErr) (List.eq_of_mem_replicate (n := xs.length) ?_)
    rw [← hrs]
    exact List.mem_map_of_mem hr
  · rw [← List.length_map, hrs, List.length_replicate]
  · simp only [hedge, State.fsmEdge, htst, h, State.gapEdge, if_neg hcnt]
  · simp only [hedge, State.fsmEdge, htst, h, State.delayEdge, if_neg hcnt]; rfl
  · simp only [hedge, State.fsmEdge, htst, h, State.pgapEdge, if_neg hcnt]; rfl

/-! ### Rejected commands -/

/-- R122, R201: an invalid command that is issued to an idle block ends two cycles after its acceptance, and a device sees
nothing of it. -/
theorem State.issue_of_invalid {s : State} {w : Word} {x c f : CycleIn} {rest : List CycleIn} (hst : s.st = .idle)
    (hp : s.pending = x :: c :: f :: rest) (hx : x.rst = false) (hc : c.calm = true) (hf : f.calm = true)
    (hv : ¬ (s.accept w).validCommand = true) :
    ∃ rs, s.issue w = (((s.accept w).raise .invalidArgument).finishCommand).withEnv rest (s.log ++ rs) ∧
      framesBetween s (s.issue w) = [] := by
  obtain ⟨rs, hrun, hrs⟩ := State.issue_of_busyOver hst hp hx (State.BusyOver.rejected rfl hv hc hf) rfl
  refine ⟨rs, hrun, ?_⟩
  rw [framesBetween_eq (t := s.issue w) (rs := rs) (by rw [hrun]; rfl), hrs]
  rfl

/-- R94, R122: a word that is no command is not valid. -/
theorem State.not_validCommand_of_decode_error {s : State} {e : DecodeError} (h : decode s.lastCmd = .error e) :
    ¬ s.validCommand = true := by
  unfold decode at h
  split_ifs at h with hread hwrite hwren hwrdi hrdsr hwrsr
  simp only [State.validCommand, State.curOpc, List.mem_cons, List.not_mem_nil, hread, hwrite, hwren, hwrdi, hrdsr, hwrsr,
    or_self, decide_false, Bool.false_and, Bool.false_eq_true, not_false_eq_true]

/-- R122: a READ or WRITE whose LEN is 0 or does not fit BUF is not valid. -/
theorem State.not_validCommand_accept {s : State} {i : Instr} {addr : Addr} {len : Nat}
    (hi : i = .read addr len ∨ i = .write addr len) (hlen : len ≤ 0xFF) (hbad : len = 0 ∨ s.build.bufBytes < len) :
    ¬ (s.accept (encode i)).validCommand = true := by
  have hopc : (s.accept (encode i)).curOpc = opcRead ∨ (s.accept (encode i)).curOpc = opcWrite := by
    rcases hi with rfl | rfl
    · exact .inl (Laws.EncodedFields.read addr len).1
    · exact .inr (Laws.EncodedFields.write addr len).1
  obtain ⟨-, harg⟩ := s.operands_accept hi hlen
  rw [State.validCommand_of_transfer hopc, harg, State.accept_build]
  omega

/-- Settles O40: both kinds of words are invalid, and an invalid command sends no frame. -/
theorem invalidCommandsAreRejected : Obligations.InvalidCommandsAreRejected := by
  intro s x c f rest hst hp hx hc hf
  refine ⟨fun i addr len hwf hi hbad => ?transfer, fun w hw hres => ?reserved⟩
  case transfer =>
    have hlen : len ≤ 0xFF := by rcases hi with rfl | rfl <;> exact hwf
    obtain ⟨rs, hrun, hframes⟩ := State.issue_of_invalid hst hp hx hc hf (State.not_validCommand_accept hi hlen hbad)
    refine ⟨_, exec_eq_issue i s, ?_⟩
    rw [hframes, hrun]
    exact ⟨rfl, rfl, rfl, rfl, rfl, rfl, rfl, rfl, rfl, rfl⟩
  case reserved =>
    obtain ⟨e, he⟩ := hres
    have hstep : step s = .next (s.issue w) := by
      simp only [step, State.currentInputs, hp, List.head?_cons, Option.getD_some, hw, HostAccess.commandWord?, and_self, if_true,
        he]
    obtain ⟨rs, hrun, hframes⟩ := State.issue_of_invalid (w := w) hst hp hx hc hf (State.not_validCommand_of_decode_error he)
    refine ⟨_, hstep, ?_⟩
    rw [hframes, hrun]
    exact ⟨rfl, rfl, rfl, rfl, rfl, rfl, rfl, rfl, rfl⟩

end Sys2Proof.Machine
end

/-! SUPPORT. Exchanges that fail: a frame that breaks off, and the commands that end with BusFault because of it (obligations O41
to O43). -/

section
namespace Sys2Proof.Machine

/-! ### A frame that breaks off -/

theorem Sends.append {ws vs : List WireCycle} {a b : List Byte} (h : Sends ws a) (h' : Sends vs b) :
    Sends (ws ++ vs) (a ++ b) := by
  intro f
  obtain ⟨g, hg, hrest⟩ := h f
  obtain ⟨k, hk, hrest'⟩ := h' g
  exact ⟨k, by rw [hk, hg, List.append_assoc], fun rest => by rw [List.append_assoc, hrest, hrest']⟩

/-- R98: a byte that is not the last of its frame goes to STAGE at most. -/
theorem State.takeByte_eq_staged {s : State} (h : s.si.toNat + 1 < s.flen s.fk) (b : Byte) :
    s.takeByte b = s.staged (s.si + 1) (s.takeByte b).stage := by
  unfold State.takeByte
  rcases s.capture_cases s.fk s.si.toNat b with ⟨-, -, -, e⟩ | ⟨hk, hone, -⟩ | e
  · rw [e]; rfl
  · have hflen : s.flen s.fk = 2 := by rcases hk with hk | hk <;> rw [hk] <;> rfl
    omega
  · rw [e]; rfl

/-- R98: only a READ's bytes go to STAGE. -/
theorem State.takeByte_stage {s : State} (h : s.fk ≠ .read) (b : Byte) : (s.takeByte b).stage = s.stage := by
  unfold State.takeByte
  rcases s.capture_cases s.fk s.si.toNat b with ⟨hk, -⟩ | ⟨-, -, e⟩ | e
  · exact absurd hk h
  · rw [e]; rfl
  · rw [e]; rfl

/-- R125, R126: XFER from the current slot up to a slot of the same frame. -/
theorem State.BusyOver.xferPart {s : State} {rx : List Byte} {xs : List CycleIn} (hst : s.st = .xfer)
    (hlen : s.si.toNat + rx.length < s.flen s.fk) (h : serves rx xs = true) :
    ∃ ws si m, s.BusyOver xs ws (s.staged si m) ∧ si.toNat = s.si.toNat + rx.length ∧ (s.fk ≠ .read → m = s.stage) ∧
      Sends ws ((List.range' s.si.toNat rx.length).map (s.slotByte s.fk)) := by
  have busy : s.st ≠ .idle := by rw [hst]; decide
  induction xs generalizing s rx with
  | nil =>
    obtain rfl := List.isEmpty_iff.mp h
    exact ⟨[], s.si, s.stage, .nil s, rfl, fun _ => rfl, sends_nil⟩
  | cons x xs ih =>
    cases rx with
    | nil => cases (serves_nil_iff _).mp h
    | cons b bs =>
      obtain ⟨hx, ⟨hdone, hxs⟩ | ⟨hdone, herr, rfl, hxs⟩⟩ := (serves_cons_iff b bs x xs).mp h
      · obtain ⟨ws, si, m, hws, hsi, hm, hsent⟩ := ih hst hlen hxs busy
        exact ⟨_, si, m, .step hx busy (State.wire_xfer_waiting hst hdone) (State.fsmEdge_xfer_waiting hst hdone) hws, hsi, hm,
          hsent.wait _⟩
      · rw [List.length_cons] at hlen ⊢
        have hnext : s.si.toNat + 1 < s.flen s.fk := by omega
        have hsucc := State.toNat_si_succ hnext
        have hstage (hk : s.fk ≠ .read) := State.takeByte_stage hk x.xferRx
        have he := State.fsmEdge_xfer_next hst hdone herr hnext
        rw [State.takeByte_eq_staged hnext] at he
        obtain ⟨ws, si, m, hws, hsi, hm, hsent⟩ := ih (s := s.staged (s.si + 1) (s.takeByte x.xferRx).stage) hst
          (by change (s.si + 1).toNat + _ < s.flen s.fk; omega) hxs busy
        change si.toNat = (s.si + 1).toNat + _ at hsi
        change Sends ws ((List.range' (s.si + 1).toNat _).map (s.slotByte s.fk)) at hsent
        rw [hsucc] at hsi hsent
        rw [List.range'_succ, List.map_cons]
        exact ⟨_, si, m, .step hx busy (State.wire_xfer_done hst (by omega) hdone) he hws, by omega,
          fun hk => (hm hk).trans (hstage hk), hsent.exchange _ _⟩

/-- R125: XFER without answers. -/
theorem State.BusyOver.xferWaits {s : State} {xs : List CycleIn} (hst : s.st = .xfer)
    (h : ∀ x ∈ xs, x.calm = true ∧ x.xferDone = false) : ∃ ws, s.BusyOver xs ws s ∧ Sends ws [] := by
  induction xs with
  | nil => exact ⟨[], .nil s, sends_nil⟩
  | cons x xs ih =>
    obtain ⟨hx, hdone⟩ := h x List.mem_cons_self
    obtain ⟨ws, hws, hsent⟩ := ih fun y hy => h y (List.mem_cons_of_mem x hy)
    exact ⟨_, .step hx (by rw [hst]; decide) (State.wire_xfer_waiting hst hdone) (State.fsmEdge_xfer_waiting hst hdone) hws,
      hsent.wait _⟩

/-- R128: XFER with an exchange that fails. -/
theorem State.fsmEdge_xfer_fails {s : State} {x : CycleIn} (hst : s.st = .xfer) (hx : x.xferDone = true)
    (hfails : s.xferFails x = true) : s.fsmEdge x = s.raiseBusFault := by
  simp only [State.fsmEdge, hst, State.xferEdge, hx, hfails, Bool.true_eq_false, if_false, if_true]

/-- R128, R131: the state in FINISH after a frame that has broken off. -/
def State.broken (s : State) (si : BitVec 9) (stage : Memory) : State :=
  { s.staged si stage with abort := true, res := .busFault, cnt := 1, st := .finish }

/-- R128, R131: a frame that breaks off, from ASSERT through GAP. -/
theorem State.BusyOver.brokenFrame {s : State} {rx : List Byte} {xs : List CycleIn} (hl : s.build.Legal)
    (hdrives : s.build.transportHasErr = true) (hst : s.st = .assert) (hlen : rx.length < s.flen s.fk)
    (h : brokenFrameCycles s.build.csGap.toNat rx xs) :
    ∃ ws si m, s.BusyOver xs ws (s.broken si m) ∧ (s.fk ≠ .read → m = s.stage) ∧
      Shows ws [(List.range (rx.length + 1)).map (s.slotByte s.fk)] := by
  obtain ⟨a, ys, vs, e, g, rfl, ha, hys, hvs, he, hdone, herr, hg⟩ := h
  have hassert : s.fsmEdge a = s.assertEdge := by simp only [State.fsmEdge, hst]
  obtain ⟨w1, si, m, h1, hsi, hm, hsent1⟩ := State.BusyOver.xferPart (s := s.assertEdge) rfl
    (by change 0 + rx.length < s.flen s.fk; omega) hys
  set u := s.assertEdge.staged si m
  have hslot : u.si.toNat = rx.length := hsi.trans (Nat.zero_add _)
  obtain ⟨w2, h2, hsent2⟩ := State.BusyOver.xferWaits (s := u) rfl hvs
  have hfails : u.xferFails e = true := by rw [State.xferFails, herr]; exact hdrives
  have hcnt : u.raiseBusFault.cnt.toNat = s.build.csGap.toNat := BitVec.toNat_setWidth_of_le (by decide)
  have hgap := State.BusyOver.wait (s := u.raiseBusFault) (t := s.broken si m) (.inl rfl) hcnt (csGap_ne_zero hl) hg fun _ => rfl
  have hfault := State.BusyOver.step he (show u.st ≠ .idle from nofun)
    (State.wire_xfer_done rfl (show u.si.toNat < s.flen s.fk by omega) hdone) (State.fsmEdge_xfer_fails rfl hdone hfails) hgap
  have hsent := (hsent1.append hsent2).append (sends_nil.exchange ⟨u.slotByte u.fk u.si.toNat, e.xferRx,
    e.xferErr && u.build.transportHasErr⟩ e.rst)
  have hbytes : (List.range' s.assertEdge.si.toNat rx.length).map (s.assertEdge.slotByte s.assertEdge.fk) ++ [] ++
      [u.slotByte u.fk u.si.toNat] = (List.range (rx.length + 1)).map (s.slotByte s.fk) := by
    rw [hslot, List.append_nil, List.range_succ, List.map_append, List.range_eq_range']
    rfl
  have hshows := hsent.frame a.rst (csGap_ne_zero hl)
  rw [hbytes, List.append_assoc, List.singleton_append] at hshows
  exact ⟨_, si, m, .step ha (by rw [hst]; decide) (State.wire_assert hst a) hassert ((h1.append h2).append hfault), hm, hshows⟩

/-! ### Commands whose first frame breaks off -/

/-- R123, R96: the number of bytes of a command's first frame. -/
def firstFlen : Instr → Nat
  | .read _ len => 3 + len
  | .write _ _ | .wren _ _ | .wrdi _ _ => 1
  | .rdsr _ _ | .wrsr _ _ => 2

/-- R122, R123: a command with a legal LEN is valid when it is accepted, and its first frame has the length that its kind gives
it. -/
theorem State.first_accept (s : State) {i : Instr} (hwf : i.WellFormed)
    (hlen : ∀ addr len, i = .read addr len ∨ i = .write addr len → 1 ≤ len ∧ len ≤ s.build.bufBytes) :
    (s.accept (encode i)).validCommand = true ∧
      (s.accept (encode i)).flen (firstFrame (s.accept (encode i)).curOpc) = firstFlen i := by
  have transfer {addr : Addr} {len : Nat} (hi : i = .read addr len ∨ i = .write addr len) (h255 : len ≤ 0xFF)
      (hopc : (s.accept (encode i)).curOpc = opcRead ∨ (s.accept (encode i)).curOpc = opcWrite) :
      (s.accept (encode i)).validCommand = true ∧ (s.accept (encode i)).curArg.toNat = len := by
    obtain ⟨-, harg⟩ := s.operands_accept hi h255
    exact ⟨(State.validCommand_of_transfer hopc).mpr (harg.symm ▸ hlen addr len hi), harg⟩
  cases i with
  | read addr len =>
    have hopc : (s.accept (encode (.read addr len))).curOpc = opcRead := (Laws.EncodedFields.read addr len).1
    obtain ⟨hv, harg⟩ := transfer (.inl rfl) hwf (.inl hopc)
    exact ⟨hv, by rw [hopc]; exact congrArg (3 + ·) harg⟩
  | write addr len =>
    have hopc : (s.accept (encode (.write addr len))).curOpc = opcWrite := (Laws.EncodedFields.write addr len).1
    exact ⟨(transfer (.inr rfl) hwf (.inr hopc)).1, by rw [hopc]; rfl⟩
  | wren a b =>
    have hopc : (s.accept (encode (.wren a b))).curOpc = opcWren := (Laws.EncodedFields.wren a b).1
    rw [State.validCommand, hopc]; exact ⟨rfl, rfl⟩
  | wrdi a b =>
    have hopc : (s.accept (encode (.wrdi a b))).curOpc = opcWrdi := (Laws.EncodedFields.wrdi a b).1
    rw [State.validCommand, hopc]; exact ⟨rfl, rfl⟩
  | rdsr a b =>
    have hopc : (s.accept (encode (.rdsr a b))).curOpc = opcRdsr := (Laws.EncodedFields.rdsr a b).1
    rw [State.validCommand, hopc]; exact ⟨rfl, rfl⟩
  | wrsr value a =>
    have hopc : (s.accept (encode (.wrsr value a))).curOpc = opcWrsr := (Laws.EncodedFields.wrsr value a).1
    rw [State.validCommand, hopc]; exact ⟨rfl, rfl⟩

/-- What a command shows that is issued to an idle block and runs over calm cycles, CHECK first and FINISH last. -/
theorem State.issue_of_command {s t : State} {w : Word} {fk : FrameKind} {x c f : CycleIn} {body rest : List CycleIn}
    {ws : List WireCycle} {sent : List (List Byte)} (hst : s.st = .idle) (hp : s.pending = x :: c :: (body ++ f :: rest)) (hx : x.rst = false)
    (hc : c.calm = true) (hf : f.calm = true) (hv : (s.accept w).validCommand = true) (hfk : firstFrame (s.accept w).curOpc = fk)
    (h : ((s.accept w).openFrame fk).BusyOver body ws t) (ht : t.st = .finish)
    (hshows : Shows ws sent) :
    ∃ l, s.issue w = t.finishCommand.withEnv rest l ∧ (framesBetween s (s.issue w)).map Frame.sent = sent := by
  obtain ⟨rs, hrun, hrs⟩ := State.issue_of_busyOver (rest := rest) hst (by rw [hp]; simp) hx
    (State.BusyOver.command rfl hv hfk hc hf h ht) rfl
  refine ⟨_, hrun, ?_⟩
  rw [framesBetween_eq (t := s.issue w) (rs := rs) (by rw [hrun]; rfl), hrs]
  exact hshows.within_high.high.frames

/-- Settles O41: CHECK, the frame that breaks off, and FINISH. -/
theorem faultInTheFirstFrameEndsTheCommand : Obligations.FaultInTheFirstFrameEndsTheCommand := by
  intro s i x c f fr rest rx hl hdrives hwf hst hp hx hc hf hlegal hlen hfr
  have hlen' : rx.length < firstFlen i := by cases i <;> exact hlen
  obtain ⟨hv, hflen⟩ := s.first_accept hwf hlegal
  obtain ⟨ws, si, m, hws, -, hshows⟩ := State.BusyOver.brokenFrame
    (s := (s.accept (encode i)).openFrame (firstFrame (s.accept (encode i)).curOpc)) hl hdrives rfl (hflen.symm ▸ hlen') hfr
  obtain ⟨l, hrun, hsent⟩ := State.issue_of_command hst hp hx hc hf hv rfl hws rfl hshows
  refine ⟨_, exec_eq_issue i s, ?_⟩
  have hcount : (framesBetween s (s.issue (encode i))).length = 1 := by rw [← List.length_map (f := Frame.sent), hsent]; rfl
  rw [hcount, hrun]
  exact ⟨rfl, rfl, rfl, rfl, rfl, rfl, rfl, rfl, rfl, rfl⟩

/-! ### WRITEs whose data frame or poll breaks off -/

/-- The state with another slot index, and the down-counter at 1: what a frame leaves of which no byte is kept. -/
def State.settled (s : State) (si : BitVec 9) : State := { s with si := si, cnt := 1 }

/-- R162: a WRITE's enable frame, after which its data frame is due. -/
theorem State.BusyOver.enable {s : State} {e : Byte} {xs : List CycleIn} (hl : s.build.Legal) (hopc : s.curOpc = opcWrite)
    (ha : s.abort = false) (h : frameCycles s.build.csGap.toNat [e] xs) :
    ∃ ws si, (s.openFrame .wren).BusyOver xs ws ((s.settled si).openFrame .write) ∧ Shows ws [[0x06]] := by
  obtain ⟨ws, si, hws, hsent⟩ := State.BusyOver.frame_of_discards (s := s.openFrame .wren) hl rfl trivial rfl h
  rw [State.afterGap_of_enable (s := { s.openFrame .wren with si := si, cnt := 1, st := .gap }) ha rfl hopc] at hws
  exact ⟨ws, si, hws, hsent⟩

/-- R162, R97: the bytes of a WRITE's data frame. -/
theorem State.map_slotByte_write (s : State) (n : Nat) :
    (List.range (3 + n)).map (s.slotByte .write) =
      0x02 :: addrHigh s.curAddr :: addrLow s.curAddr :: (List.range n).map s.buf.read :=
  State.map_slotByte_header n rfl rfl rfl fun _ => rfl

/-- R130, R164: under POLL_STATUS a WRITE's wait begins with a poll. -/
theorem State.startWait_of_pollStatus {s : State} (hp : s.policy = .pollStatus) : s.startWait = s.openFrame .poll := by
  rw [State.startWait, hp]

/-- R164: a WRITE's data frame under POLL_STATUS, after which the first poll is due. -/
theorem State.BusyOver.data {s : State} {rx : List Byte} {xs : List CycleIn} (hl : s.build.Legal) (ha : s.abort = false)
    (hp : s.policy = .pollStatus) (hlen : rx.length = 3 + s.curArg.toNat) (h : frameCycles s.build.csGap.toNat rx xs) :
    ∃ ws si sent, (s.openFrame .write).BusyOver xs ws ((s.settled si).openFrame .poll) ∧ Shows ws [sent] := by
  obtain ⟨ws, si, hws, hsent⟩ := State.BusyOver.frame_of_discards (s := s.openFrame .write) hl rfl trivial hlen h
  rw [State.afterGap_of_write (s := { s.openFrame .write with si := si, cnt := 1, st := .gap }) ha rfl,
    State.startWait_of_pollStatus (s := { s.openFrame .write with si := si, cnt := 1, st := .gap }) hp] at hws
  exact ⟨ws, si, _, hws, hsent⟩

/-- R164: a poll that reads bit 0 = 1 below LIMIT, and the time to the next one. -/
theorem State.BusyOver.pollWaiting {s : State} {b0 b : Byte} {fr d : List CycleIn} (hl : s.build.Legal) (hst : s.st = .assert)
    (hfk : s.fk = .poll) (ha : s.abort = false) (hfr : frameCycles s.build.csGap.toNat [b0, b] fr)
    (hd : calmCycles s.pollGap.toNat d) (hwip : b.getLsbD 0 = true) (hlimit : s.polls.toNat + 1 < s.limit.toNat) :
    ∃ ws, s.BusyOver (fr ++ d) ws (s.polled 1 b) ∧ Shows ws [[0x05, 0x00]] ∧ (s.polled 1 b).polls.toNat = s.polls.toNat + 1 := by
  have hpolls : (s.polled 1 b).polls.toNat = s.polls.toNat + 1 := by
    have := s.limit.isLt
    change (s.polls + 1).toNat = _
    bv_omega
  have hleft : (s.polled 1 b).polls < s.limit := by rw [BitVec.lt_def, hpolls]; omega
  have hback : State.reassert { s.polled 1 b with st := .gap } = s.polled 1 b := by rw [State.reassert, ← hst]; rfl
  obtain ⟨ws, hws, hsent⟩ := State.BusyOver.poll hl hst hfk ha hfr
  obtain ⟨vs, hvs, hgap⟩ := State.BusyOver.pollAgain (s := { s.polled 1 b with st := .gap }) hfk rfl hwip hleft hd
  rw [hback] at hvs
  exact ⟨_, hws.append hvs, hsent.append hgap, hpolls⟩

/-- The state with the status byte and the count that some polls have left, another slot index and another down-counter. -/
def State.afterPolls (s : State) (sr : Byte) (polls : BitVec 16) (si : BitVec 9) (cnt : Word) : State :=
  { s with sr := sr, polls := polls, si := si, cnt := cnt }

/-- R164: polls that all read bit 0 = 1, fewer than LIMIT, up to the ASSERT of the next one. -/
theorem State.BusyOver.pollsWaiting {s : State} {waiting : List Byte} {ps d : List CycleIn} (hl : s.build.Legal)
    (hst : s.st = .assert) (hfk : s.fk = .poll) (ha : s.abort = false)
    (hps : pollCycles s.build.csGap.toNat s.pollGap.toNat waiting ps)
    (hd : calmCycles (if waiting = [] then 0 else s.pollGap.toNat) d) (hw : ∀ b ∈ waiting, b.getLsbD 0 = true)
    (hlimit : s.polls.toNat + waiting.length < s.limit.toNat) :
    ∃ ws si cnt polls, s.BusyOver (ps ++ d) ws (s.afterPolls (waiting.getLastD s.sr) polls si cnt) ∧
      polls.toNat = s.polls.toNat + waiting.length ∧ Shows ws (List.replicate waiting.length [0x05, 0x00]) := by
  induction waiting generalizing s ps with
  | nil =>
    obtain rfl : ps = [] := hps
    obtain rfl : d = [] := List.eq_nil_of_length_eq_zero hd.1
    exact ⟨[], s.si, s.cnt, s.polls, .nil s, rfl, shows_nil⟩
  | cons b bs ih =>
    rw [List.length_cons] at hlimit
    rw [if_neg (List.cons_ne_nil b bs)] at hd
    have hb : b.getLsbD 0 = true := hw b List.mem_cons_self
    cases bs with
    | nil =>
      obtain ⟨b0, hfr⟩ := hps
      obtain ⟨ws, hws, hsent, hpolls⟩ := State.BusyOver.pollWaiting hl hst hfk ha hfr hd hb (by simpa using hlimit)
      exact ⟨ws, _, _, _, hws, hpolls, hsent⟩
    | cons b' bs =>
      rw [List.length_cons] at hlimit
      obtain ⟨b0, fr, d', rest, rfl, hfr, hd', hrest⟩ := hps
      obtain ⟨ws, hws, hsent, hpolls⟩ := State.BusyOver.pollWaiting hl hst hfk ha hfr hd' hb (by omega)
      obtain ⟨vs, si, cnt, polls, hvs, hcount, hmore⟩ := ih (s := s.polled 1 b) hl hst hfk ha hrest
        (by rw [if_neg (List.cons_ne_nil b' bs)]; exact hd) (fun c hc => hw c (List.mem_cons_of_mem b hc))
        (by rw [hpolls, List.length_cons]; change _ < s.limit.toNat; omega)
      rw [hpolls] at hcount
      rw [List.append_assoc]
      exact ⟨_, si, cnt, polls, hws.append hvs, by rw [hcount, List.length_cons (a := b)]; omega, hsent.append hmore⟩

/-- R22, R93: a WRITE with a legal LEN, when it has been accepted. -/
theorem State.accept_write (s : State) (addr : Addr) {len : Nat} (hl : s.build.Legal) (h1 : 1 ≤ len)
    (hb : len ≤ s.build.bufBytes) :
    (s.accept (encode (.write addr len))).curOpc = opcWrite ∧ (s.accept (encode (.write addr len))).curAddr = addr ∧
      (s.accept (encode (.write addr len))).curArg.toNat = len ∧
      (s.accept (encode (.write addr len))).validCommand = true := by
  have hopc : (s.accept (encode (.write addr len))).curOpc = opcWrite := (Laws.EncodedFields.write addr len).1
  obtain ⟨haddr, harg⟩ := s.operands_accept (.inr rfl) (le_len_max hl hb) (addr := addr)
  exact ⟨hopc, haddr, harg, (State.validCommand_of_transfer (.inr hopc)).mpr (harg.symm ▸ ⟨h1, hb⟩)⟩

/-- Settles O42: CHECK, the enable frame, the data frame that breaks off, and FINISH. -/
theorem faultInTheDataFrameEndsTheWrite : Obligations.FaultInTheDataFrameEndsTheWrite := by
  intro s addr len x c f en fr rest e rx hl hdrives hst h1 hb hp hx hc hf hen hrx hfr
  obtain ⟨hopc, haddr, harg, hv⟩ := s.accept_write addr hl h1 hb
  set u := s.accept (encode (.write addr len))
  obtain ⟨ws, si, hws, hsent⟩ := State.BusyOver.enable (s := u) hl hopc rfl hen
  have hflen : ((u.settled si).openFrame .write).flen .write = 3 + len := congrArg (3 + ·) harg
  obtain ⟨vs, si', m, hvs, hm, hsent'⟩ := State.BusyOver.brokenFrame (s := (u.settled si).openFrame .write) hl hdrives rfl
    (hflen.symm ▸ hrx) hfr
  obtain rfl := hm nofun
  obtain ⟨l, hrun, hframes⟩ := State.issue_of_command (fk := .wren) hst hp hx hc hf hv (hopc ▸ rfl) (hws.append hvs) rfl
    (hsent.append hsent')
  have hbytes : (List.range (rx.length + 1)).map (((u.settled si).openFrame .write).slotByte .write) =
      (0x02 :: addrHigh addr :: addrLow addr :: (List.range len).map s.buf.read).take (rx.length + 1) := by
    have hall := ((u.settled si).openFrame .write).map_slotByte_write len
    change _ = 0x02 :: addrHigh u.curAddr :: addrLow u.curAddr :: (List.range len).map s.buf.read at hall
    rw [← haddr, ← hall, ← List.map_take, List.take_range, Nat.min_eq_left hrx]
  refine ⟨_, exec_eq_issue _ s, ?_⟩
  rw [hframes, hrun]
  exact ⟨rfl, rfl, rfl, rfl, rfl, rfl, rfl, rfl, rfl, rfl, congrArg ([[0x06], ·]) hbytes⟩

/-- Settles O43: CHECK, the enable frame, the data frame, the whole polls, the poll that breaks off, and FINISH. -/
theorem faultInAPollEndsTheWrite : Obligations.FaultInAPollEndsTheWrite := by
  intro s addr len x c f en fr ps d bad rest e rx waiting bx hl hdrives hst h1 hb hpol hp hx hc hf hen hrx hfr hps hw hlimit hd
    hbx hbad
  obtain ⟨hopc, -, harg, hv⟩ := s.accept_write addr hl h1 hb
  set u := s.accept (encode (.write addr len))
  obtain ⟨w1, si1, henable, hsent1⟩ := State.BusyOver.enable (s := u) hl hopc rfl hen
  obtain ⟨w2, si2, data, hdata, hsent2⟩ := State.BusyOver.data (s := u.settled si1) hl rfl hpol
    (hrx.trans (congrArg (3 + ·) harg.symm)) hfr
  obtain ⟨w3, si3, cnt, polls, hwaiting, hpolls, hsent3⟩ := State.BusyOver.pollsWaiting
    (s := ((u.settled si1).settled si2).openFrame .poll) hl rfl rfl rfl hps hd hw
    (by change (0 : BitVec 16).toNat + _ < s.limit.toNat; simpa using hlimit)
  obtain ⟨w4, si4, m, hbroken, hm, hsent4⟩ := State.BusyOver.brokenFrame
    (s := (((u.settled si1).settled si2).openFrame .poll).afterPolls (waiting.getLastD s.sr) polls si3 cnt) hl hdrives rfl hbx
    hbad
  obtain rfl := hm nofun
  obtain ⟨l, hrun, hframes⟩ := State.issue_of_command (fk := .wren) (rest := rest) hst (by rw [hp]; simp) hx hc hf hv
    (hopc ▸ rfl) (((henable.append hdata).append hwaiting).append hbroken) rfl
    (((hsent1.append hsent2).append hsent3).append hsent4)
  have hcount : (framesBetween s (s.issue (encode (.write addr len)))).length = 2 + waiting.length + 1 := by
    rw [← List.length_map (f := Frame.sent), hframes]
    simp only [List.length_append, List.length_singleton, List.length_replicate]
  refine ⟨_, exec_eq_issue _ s, ?_⟩
  rw [hcount, hrun]
  exact ⟨rfl, rfl, rfl, rfl, rfl, rfl, rfl, hpolls.trans (Nat.zero_add _), rfl, rfl, rfl⟩

end Sys2Proof.Machine
end

/-! SUPPORT. The spacing of chip-select windows over any steps (obligation O53): the number of cycles that chip-select has been
high since it was last low, and what each FSM state knows of it. -/

section
namespace Sys2Proof.Machine

/-! ### Counting the cycles with chip-select high -/

/-- One cycle more of the count of cycles with chip-select high since it was last low. There is no count before the first low
cycle, and a reset ends it (R230). -/
def highAfter (count : Option Nat) (r : CycleRecord) : Option Nat :=
  if r.inputs.rst then none else if r.outputs.csN then count.map (· + 1) else some 0

/-- The number of cycles with chip-select high since the last low one, at the end of some cycles. -/
def highCount (rs : List CycleRecord) : Option Nat := rs.foldl highAfter none

theorem highCount_concat (rs : List CycleRecord) (r : CycleRecord) : highCount (rs ++ [r]) = highAfter (highCount rs) r := by
  rw [highCount, List.foldl_append]; rfl

theorem foldl_highAfter_of_high {rs : List CycleRecord} (h : ∀ r ∈ rs, r.outputs.csN = true ∧ r.inputs.rst = false) (k : Nat) :
    rs.foldl highAfter (some k) = some (k + rs.length) := by
  induction rs generalizing k with
  | nil => rfl
  | cons r rs ih =>
    obtain ⟨hcs, hrst⟩ := h r List.mem_cons_self
    have hr : highAfter (some k) r = some (k + 1) := by simp [highAfter, hcs, hrst]
    rw [List.foldl_cons, hr, ih (fun c hc => h c (List.mem_cons_of_mem r hc)), List.length_cons, Nat.add_assoc,
      Nat.add_comm 1]

/-- After a low cycle at `m`, and high cycles from there on, none of them with reset, the count is that of the high ones. -/
theorem highCount_take {rs : List CycleRecord} {m n : Nat} {a : CycleRecord} (ha : rs[m]? = some a) (hmn : m < n)
    (hn : n ≤ rs.length) (hlow : a.outputs.csN = false)
    (hhigh : ∀ k c, m < k → k < n → rs[k]? = some c → c.outputs.csN = true)
    (hrst : ∀ k c, m ≤ k → k < n → rs[k]? = some c → c.inputs.rst = false) : highCount (rs.take n) = some (n - m - 1) := by
  obtain ⟨hm, rfl⟩ := List.getElem?_eq_some_iff.mp ha
  have hsplit : rs.take n = rs.take m ++ rs[m] :: (rs.take n).drop (m + 1) := by
    have hparts := (List.take_append_drop m (rs.take n)).symm
    rwa [List.take_take, Nat.min_eq_left hmn.le, List.drop_eq_getElem_cons (by rw [List.length_take]; omega),
      List.getElem_take] at hparts
  have hbetween : ∀ r ∈ (rs.take n).drop (m + 1), r.outputs.csN = true ∧ r.inputs.rst = false := by
    intro r hr
    obtain ⟨k, hk⟩ := List.mem_iff_getElem?.mp hr
    rw [List.getElem?_drop, List.getElem?_take] at hk
    split at hk
    case isTrue hlt => exact ⟨hhigh _ r (by omega) hlt hk, hrst _ r (by omega) hlt hk⟩
    case isFalse => cases hk
  have hzero : highAfter (highCount (rs.take m)) rs[m] = some 0 := by
    rw [highAfter, hrst m _ le_rfl hmn ha, hlow]; rfl
  rw [hsplit, highCount, List.foldl_append, List.foldl_cons]
  change ((rs.take n).drop (m + 1)).foldl highAfter (highAfter (highCount (rs.take m)) rs[m]) = _
  rw [hzero, foldl_highAfter_of_high hbetween, List.length_drop, List.length_take]
  exact congrArg some (by omega)

/-! ### What each FSM state knows of the count -/

/-- R129, R136, R240: the least number of cycles with chip-select high since it was last low, by FSM state. -/
def State.Spacing (s : State) (high : Nat) : SeqState → Prop
  | .xfer => high = 0
  | .gap => s.build.csGap.toNat ≤ high + s.cnt.toNat
  | .idle => s.build.csGap.toNat + 1 ≤ high
  | .check | .assert | .delay | .pgap | .finish => s.build.csGap.toNat ≤ high

/-- R129, R130: leaving GAP, the block has kept chip-select high for CS_GAP cycles. -/
theorem State.spacing_afterGap {s : State} {high : Nat} (h : s.build.csGap.toNat ≤ high) :
    s.afterGap.Spacing high s.afterGap.st := by
  rcases s.afterGap_cases with ⟨-, e⟩ | ⟨-, -, -, e⟩ | ⟨-, -, -, -, e⟩ | ⟨-, -, -, -, e⟩ | ⟨-, -, -, e⟩ | ⟨-, -, e⟩ |
    ⟨-, -, -, -, e⟩ <;> rw [e]
  case inr.inr.inr.inr.inr.inl =>
    rcases s.pollDecision_cases with ⟨-, d⟩ | ⟨-, -, d⟩ | ⟨-, -, -, d⟩ | ⟨-, -, -, d⟩ <;> rw [d] <;> exact h
  all_goals exact h

/-- R127, R128: a frame that closes has CS_GAP cycles with chip-select high before it. -/
theorem toNat_csGap_setWidth (b : Build) : b.csGap.toNat ≤ 0 + (b.csGap.setWidth 32).toNat := by
  rw [Nat.zero_add, BitVec.toNat_setWidth_of_le (by decide)]

/-- A low cycle: the next state is XFER, or GAP with the down-counter at CS_GAP. -/
theorem State.spacing_fsmEdge_of_low {s : State} (h : s.csN = false) (x : CycleIn) :
    (s.fsmEdge x).Spacing 0 (s.fsmEdge x).st := by
  unfold State.fsmEdge
  cases hst : s.st with
  | idle | check | gap | delay | pgap | finish => simp [State.csN, hst] at h
  | assert => rfl
  | xfer =>
    dsimp only
    rcases s.xferEdge_cases x with ⟨-, e⟩ | ⟨-, -, e⟩ | ⟨-, -, -, e⟩ | ⟨-, -, -, e⟩ <;> rw [e]
    · rw [hst]; rfl
    · exact toNat_csGap_setWidth s.build
    · change Spacing _ 0 (s.takeByte x.xferRx).st
      rw [s.takeByte_st, hst]; rfl
    · exact toNat_csGap_setWidth _

/-- A high cycle of a busy block: the count goes up by one, and the down-counter down. -/
theorem State.spacing_fsmEdge_of_high {s : State} {high : Nat} (busy : s.st ≠ .idle) (hcs : s.csN = true)
    (h : s.Spacing high s.st) (x : CycleIn) : (s.fsmEdge x).Spacing (high + 1) (s.fsmEdge x).st := by
  unfold State.fsmEdge
  cases hst : s.st <;> rw [hst] at h <;> dsimp only
  case idle => exact absurd hst busy
  case assert | xfer => simp [State.csN, hst] at hcs
  case check => rcases s.checkEdge_cases with ⟨-, e⟩ | ⟨-, e⟩ <;> rw [e] <;> exact Nat.le_succ_of_le h
  case gap =>
    change s.build.csGap.toNat ≤ high + s.cnt.toNat at h
    unfold State.gapEdge
    split
    case isTrue hc =>
      rw [State.countDown_st, hst]
      change s.build.csGap.toNat ≤ high + 1 + (s.cnt - 1).toNat
      bv_omega
    case isFalse hc => exact State.spacing_afterGap (by bv_omega)
  case delay =>
    unfold State.delayEdge
    split
    · rw [State.countDown_st, hst]; exact Nat.le_succ_of_le h
    · exact Nat.le_succ_of_le h
  case pgap =>
    unfold State.pgapEdge
    split
    · rw [State.countDown_st, hst]; exact Nat.le_succ_of_le h
    · exact Nat.le_succ_of_le h
  case finish => exact Nat.succ_le_succ h

/-- R121: an idle block stays idle, or accepts a command, or is reset. -/
theorem State.edge_st_of_idle {s : State} (h : s.st = .idle) (x : CycleIn) : (s.edge x).st = .idle ∨ (s.edge x).st = .check := by
  cases hr : x.rst with
  | true => rw [State.edge_of_rst hr]; exact .inl rfl
  | false =>
    rw [State.edge_of_idle hr h]
    rcases State.hostEffect_of_idle h x.host with e | ⟨w, -, e⟩ | ⟨v, e⟩ | ⟨v, e⟩ | ⟨v, e⟩ | ⟨k, v, e⟩ <;> rw [e]
    case inr.inl => exact .inr rfl
    all_goals exact .inl h

/-- One cycle, whatever comes in it. -/
theorem State.spacing_edge {s : State} {count : Option Nat} (h : ∀ k ∈ count, s.Spacing k s.st) (x : CycleIn) :
    ∀ k ∈ highAfter count ⟨x, s.outputs x⟩, (s.edge x).Spacing k (s.edge x).st := by
  intro k hk
  cases hr : x.rst with
  | true => simp [highAfter, hr] at hk
  | false =>
    by_cases hst : s.st = .idle
    · have hcs : s.csN = true := by rw [State.csN, hst]
      obtain ⟨j, hj, rfl⟩ : ∃ j, count = some j ∧ j + 1 = k := by simpa [highAfter, hr, State.outputs, hcs] using hk
      have hidle : s.build.csGap.toNat + 1 ≤ j := by simpa [State.Spacing, hst] using h j hj
      rcases State.edge_st_of_idle hst x with e | e <;> rw [e, State.Spacing, State.edge_build] <;> omega
    · rw [State.edge_of_busy hr hst]
      have hfsm (u : State) (hu : u = s ∨ u = s.setDrop) : (u.fsmEdge x).Spacing k (u.fsmEdge x).st := by
        have hu' : u.st = s.st ∧ u.csN = s.csN ∧ ∀ j ∈ count, u.Spacing j s.st := by
          rcases hu with rfl | rfl <;> exact ⟨rfl, rfl, h⟩
        obtain ⟨hust, hucs, huh⟩ := hu'
        cases hcs : s.csN with
        | false =>
          obtain rfl : 0 = k := by simpa [highAfter, hr, State.outputs, hcs] using hk
          exact State.spacing_fsmEdge_of_low (hucs.trans hcs) x
        | true =>
          obtain ⟨j, hj, rfl⟩ : ∃ j, count = some j ∧ j + 1 = k := by simpa [highAfter, hr, State.outputs, hcs] using hk
          exact State.spacing_fsmEdge_of_high (hust ▸ hst) (hucs.trans hcs) (hust ▸ huh j hj) x
      exact hfsm _ (State.hostEffect_of_busy hst x.host)

/-! ### Over any steps -/

/-- The cycles `rs` have led from `s` to `t`; every window but the first, if no reset has come since the one before it, began
after CS_GAP cycles with chip-select high, and `t` knows of the last. -/
structure Spaced (s t : State) (rs : List CycleRecord) : Prop where
  log : t.log = s.log ++ rs
  build : t.build = s.build
  windows : ∀ n b, rs[n]? = some b → b.outputs.csN = false → ∀ k ∈ highCount (rs.take n), k ≠ 0 → s.build.csGap.toNat ≤ k
  now : ∀ k ∈ highCount rs, t.Spacing k t.st

theorem Spaced.cycle {s t : State} {rs : List CycleRecord} (h : Spaced s t rs) (x : CycleIn) :
    Spaced s (t.cycle x) (rs ++ [⟨x, t.outputs x⟩]) := by
  obtain ⟨hlog, hbuild, hwindows, hnow⟩ := h
  refine ⟨by rw [State.cycle_log, hlog, List.append_assoc], by rw [State.cycle_build, State.edge_build, hbuild],
    fun n b hn hb k hk h0 => ?_, ?_⟩
  · rcases Nat.lt_trichotomy n rs.length with hlt | rfl | hgt
    · rw [List.getElem?_append_left hlt] at hn
      rw [List.take_append_of_le_length hlt.le] at hk
      exact hwindows n b hn hb k hk h0
    · rw [List.getElem?_concat_length, Option.some.injEq] at hn
      rw [List.take_left] at hk
      have hspace := hnow k hk
      have hcs : t.csN = false := by rw [← hn] at hb; exact hb
      rw [← hbuild]
      cases hst : t.st <;> rw [hst] at hspace
      case assert => exact hspace
      case xfer => exact absurd hspace h0
      all_goals simp [State.csN, hst] at hcs
    · rw [List.getElem?_eq_none (by rw [List.length_append, List.length_singleton]; omega)] at hn
      cases hn
  · rw [highCount_concat]
    exact State.spacing_edge hnow x

theorem Spaced.withPending {s t : State} {rs : List CycleRecord} (h : Spaced s t rs) (xs : List CycleIn) :
    Spaced s (t.withPending xs) rs := ⟨h.log, h.build, h.windows, h.now⟩

/-- What holds of a state and the cycles that have led to it, and is kept by every cycle, holds after any steps. -/
theorem Reaches.exists_records {s t : State} {R : State → State → List CycleRecord → Prop} (h : Reaches s t) (h0 : R s s [])
    (hc : ∀ {s t : State} {rs : List CycleRecord}, R s t rs → ∀ x, R s (t.cycle x) (rs ++ [⟨x, t.outputs x⟩]))
    (hp : ∀ {s t : State} {rs : List CycleRecord}, R s t rs → ∀ xs, R s (t.withPending xs) rs) : ∃ rs, R s t rs := by
  refine h.induct (P := fun u => ∃ rs, R s u rs) (fun u v hu huv => ?_) ⟨[], h0⟩
  exact step_induct (P := fun u => ∃ rs, R s u rs) (fun _ x ⟨_, hr⟩ => ⟨_, hc hr x⟩) (fun _ xs ⟨_, hr⟩ => ⟨_, hp hr xs⟩) hu huv

theorem elapsed_eq {s t : State} {rs : List CycleRecord} (h : t.log = s.log ++ rs) : elapsed s t = rs := by
  rw [elapsed, h, List.drop_left]

theorem Reaches.spaced {s t : State} (h : Reaches s t) : Spaced s t (elapsed s t) := by
  have hrefl : Spaced s s [] := ⟨(List.append_nil _).symm, rfl, fun n b hn => by simp at hn, fun k hk => by cases hk⟩
  obtain ⟨rs, hrs⟩ := h.exists_records hrefl Spaced.cycle Spaced.withPending
  rw [elapsed_eq hrs.log]
  exact hrs

/-- The cycles `rs` have led from the idle state `s` to `t`; the first two of them are those of IDLE and at best of CHECK, and so
have chip-select high. -/
structure BeginsHigh (s t : State) (rs : List CycleRecord) : Prop where
  log : t.log = s.log ++ rs
  high : ∀ n b, rs[n]? = some b → b.outputs.csN = false → 2 ≤ n
  first : rs.length = 0 → t.st = .idle
  second : rs.length = 1 → t.st = .idle ∨ t.st = .check

theorem BeginsHigh.cycle {s t : State} {rs : List CycleRecord} (h : BeginsHigh s t rs) (x : CycleIn) :
    BeginsHigh s (t.cycle x) (rs ++ [⟨x, t.outputs x⟩]) := by
  obtain ⟨hlog, hhigh, hfirst, hsecond⟩ := h
  refine ⟨by rw [State.cycle_log, hlog, List.append_assoc], fun n b hn hb => ?_, fun h0 => ?_, fun h1 => ?_⟩
  · rcases Nat.lt_trichotomy n rs.length with hlt | rfl | hgt
    · rw [List.getElem?_append_left hlt] at hn
      exact hhigh n b hn hb
    · rw [List.getElem?_concat_length, Option.some.injEq] at hn
      have hcs : t.csN = false := by rw [← hn] at hb; exact hb
      by_contra hlt
      obtain h0 | h1 : rs.length = 0 ∨ rs.length = 1 := by omega
      · simp [State.csN, hfirst h0] at hcs
      · rcases hsecond h1 with e | e <;> simp [State.csN, e] at hcs
    · rw [List.getElem?_eq_none (by rw [List.length_append, List.length_singleton]; omega)] at hn
      cases hn
  · simp at h0
  · exact State.edge_st_of_idle (hfirst (by simpa using h1)) x

theorem BeginsHigh.withPending {s t : State} {rs : List CycleRecord} (h : BeginsHigh s t rs) (xs : List CycleIn) :
    BeginsHigh s (t.withPending xs) rs := ⟨h.log, h.high, h.first, h.second⟩

theorem Reaches.beginsHigh {s t : State} (h : Reaches s t) (hst : s.st = .idle) : BeginsHigh s t (elapsed s t) := by
  have hrefl : BeginsHigh s s [] :=
    ⟨(List.append_nil _).symm, fun n b hn => by simp at hn, fun _ => hst, fun h1 => by simp at h1⟩
  obtain ⟨rs, hrs⟩ := h.exists_records hrefl BeginsHigh.cycle BeginsHigh.withPending
  rw [elapsed_eq hrs.log]
  exact hrs

/-- Settles O53: GAP gives the CS_GAP cycles, FINISH, IDLE and CHECK the three more between two commands. -/
theorem chipSelectStaysHighBetweenFrames : Obligations.ChipSelectStaysHighBetweenFrames := by
  refine ⟨?frames, ?commands, fun s hst => by rw [State.csN, hst]⟩
  case frames =>
    intro s t m n a b _ _ hreach ha hb hmn hlow hlow' hhigh hrst
    obtain ⟨hn, -⟩ := List.getElem?_eq_some_iff.mp hb
    exact hreach.spaced.windows n b hb hlow' _ (highCount_take ha (by omega) hn.le hlow hhigh hrst) (by omega)
  case commands =>
    intro s u t m n a b _ _ hsu hidle hut ha hb hm hn hlow hlow' hhigh hrst
    rw [elapsed_append hsu.log hut.log] at ha hb hhigh hrst
    have hcount : highCount (elapsed s u) = some ((elapsed s u).length - m - 1) := by
      have htake := highCount_take (n := (elapsed s u).length) ha hm (by simp) hlow (fun k c h h' => hhigh k c h (by omega))
        (fun k c h h' => hrst k c h (by omega))
      rwa [List.take_left] at htake
    have hspace := hsu.spaced.now _ hcount
    rw [hidle, State.Spacing, hsu.build] at hspace
    rw [List.getElem?_append_right hn] at hb
    have htwo := (hut.beginsHigh hidle).high _ b hb hlow'
    omega

end Sys2Proof.Machine
end

/-! SUPPORT. The frames of one command, over any cycles: which frames come before a frame of each kind, and what each FSM state
knows of those that have been sent (obligations O52 and O54). -/

section
namespace Sys2Proof.Machine

/-! ### What the wire has shown -/

/-- The frames that have closed, and the one that is open, if one is. -/
structure Traffic where
  closed : List Frame
  window : Option Frame

/-- R136: all frames that the block has opened. -/
def Traffic.frames (tr : Traffic) : List Frame := tr.closed ++ tr.window.toList

/-- One cycle more of the wire. -/
def Traffic.after (tr : Traffic) : WireCycle → Traffic
  | .high => ⟨tr.frames, none⟩
  | .low e _ => ⟨tr.closed, some (tr.window.getD [] ++ e.toList)⟩

/-- What some cycles show that begin with chip-select high. -/
def trafficOf (ws : List WireCycle) : Traffic := ws.foldl Traffic.after ⟨[], none⟩

theorem trafficOf_concat (ws : List WireCycle) (w : WireCycle) : trafficOf (ws ++ [w]) = (trafficOf ws).after w := by
  rw [trafficOf, List.foldl_append]; rfl

@[simp] theorem Traffic.frames_after_high (tr : Traffic) : (tr.after .high).frames = tr.frames := List.append_nil _

theorem Traffic.frames_foldl (tr : Traffic) (ws : List WireCycle) :
    (ws.foldl Traffic.after tr).frames = tr.closed ++ framesOnWire tr.window ws := by
  induction ws generalizing tr with
  | nil => rfl
  | cons w ws ih =>
    rw [List.foldl_cons, ih]
    cases w with
    | high => rw [Traffic.after, Traffic.frames, framesOnWire, List.append_assoc]
    | low e cut => rw [Traffic.after, framesOnWire]

theorem frames_trafficOf (ws : List WireCycle) : (trafficOf ws).frames = framesOnWire none ws := Traffic.frames_foldl _ ws

/-! ### Which frames come before which -/

/-- R97: the byte in slot 0 of a frame. -/
def FrameKind.opcode : FrameKind → Byte
  | .wren => 0x06
  | .wrdi => 0x04
  | .read => 0x03
  | .write => 0x02
  | .rdsr | .poll => 0x05
  | .wrsr => 0x01

theorem State.slotByte_zero (s : State) (fk : FrameKind) : s.slotByte fk 0 = fk.opcode := by
  cases fk <;> rfl

/-- A frame of a kind, or the beginning of one: its first byte, if it has been sent, is that of slot 0. -/
def Frame.Begins (f : Frame) (fk : FrameKind) : Prop := ∀ b ∈ f.sent.head?, b = fk.opcode

theorem begins_nil (fk : FrameKind) : Frame.Begins [] fk := nofun

/-- The next exchange of a frame sends the byte of the next slot. -/
theorem Frame.Begins.concat {f : Frame} {fk : FrameKind} (h : f.Begins fk) {s : State} {e : Exchange}
    (he : e.tx = s.slotByte fk f.length) : Frame.Begins (f ++ [e]) fk := by
  cases f with
  | nil =>
    rintro b hb
    obtain rfl : e.tx = b := by simpa [Frame.sent] using hb
    exact he.trans (s.slotByte_zero fk)
  | cons a f => exact h

/-- R130, R138: the frames of a command before a frame of each kind: none; a WREN frame before a WRITE's data frame; that and
the data frame and `polls` polls before a poll. -/
def Precedes (polls : Nat) : FrameKind → List Frame → Prop
  | .write, fs => ∃ g, fs = [g] ∧ g.sent = [0x06]
  | .poll, fs => ∃ g d ps, fs = g :: d :: ps ∧ g.sent = [0x06] ∧ ps.length = polls ∧ ∀ p ∈ ps, Frame.Begins p .poll
  | .wren, fs | .wrdi, fs | .read, fs | .rdsr, fs | .wrsr, fs => fs = []

/-- R138: every frame that sends the WRITE opcode comes right after one that sends WREN alone. -/
def WrenFirst (fs : List Frame) : Prop :=
  ∀ (n : Nat) (fr : Frame), fs[n]? = some fr → fr.sent.head? = some 0x02 → ∃ m, n = m + 1 ∧ (fs[m]?).map Frame.sent = some [0x06]

theorem WrenFirst.of_append {fs gs : List Frame} (h : WrenFirst (fs ++ gs)) : WrenFirst fs := by
  intro n fr hn hfr
  have hlt : n < fs.length := (List.getElem?_eq_some_iff.mp hn).1
  obtain ⟨m, rfl, hm⟩ := h n fr (by rw [List.getElem?_append_left hlt, hn]) hfr
  exact ⟨m, rfl, by rwa [List.getElem?_append_left (by omega)] at hm⟩

/-- A frame of another kind than F_WRITE does not send the WRITE opcode. -/
theorem Frame.Begins.head?_ne {f : Frame} {fk : FrameKind} (h : f.Begins fk) (hk : fk.opcode ≠ 0x02) : f.sent.head? ≠ some 0x02 :=
  fun h2 => hk (h _ h2).symm

/-- R138: with the frames before it, a frame comes in the right order. -/
theorem Precedes.wrenFirst_concat {polls : Nat} {fk : FrameKind} {fs : List Frame} {f : Frame} (h : Precedes polls fk fs)
    (hf : f.Begins fk) : WrenFirst (fs ++ [f]) := by
  intro n fr hn hfr
  have only (h0 : fs = []) (hk : fk.opcode ≠ 0x02) : ∃ m, n = m + 1 ∧ ((fs ++ [f])[m]?).map Frame.sent = some [0x06] := by
    subst h0
    obtain rfl : f = fr := by cases n <;> simp_all
    exact absurd hfr (hf.head?_ne hk)
  have hsix {g : Frame} (hg : g.sent = [0x06]) : g.sent.head? ≠ some 0x02 := by rw [hg]; decide
  cases fk with
  | wren | wrdi | read | rdsr | wrsr => exact only h (by decide)
  | write =>
    obtain ⟨g, rfl, hg⟩ := h
    match n, hn with
    | 0, hn => cases hn; exact absurd hfr (hsix hg)
    | 1, _ => exact ⟨0, rfl, congrArg some hg⟩
  | poll =>
    obtain ⟨g, d, ps, rfl, hg, -, hps⟩ := h
    match n, hn with
    | 0, hn => cases hn; exact absurd hfr (hsix hg)
    | 1, _ => exact ⟨0, rfl, congrArg some hg⟩
    | n + 2, hn =>
      have hmem : fr ∈ ps ++ [f] := List.mem_of_getElem? (i := n) hn
      have hbegins : fr.Begins .poll := by
        rcases List.mem_append.mp hmem with hp | hp
        · exact hps fr hp
        · rw [List.mem_singleton.mp hp]; exact hf
      exact absurd hfr (hbegins.head?_ne (by decide))

theorem Precedes.wrenFirst {polls : Nat} {fk : FrameKind} {fs : List Frame} (h : Precedes polls fk fs) : WrenFirst fs :=
  (h.wrenFirst_concat (begins_nil fk)).of_append

/-- R130: the frames of a command when a frame of each kind is whole: what precedes the frame that may follow, or one frame. -/
def Follows (polls : Nat) : FrameKind → List Frame → Prop
  | .wren, fs => Precedes polls .write fs
  | .write, fs | .poll, fs => Precedes polls .poll fs
  | .wrdi, fs | .read, fs | .rdsr, fs | .wrsr, fs => fs.length = 1 ∧ WrenFirst fs

theorem Follows.wrenFirst {polls : Nat} {fk : FrameKind} {fs : List Frame} (h : Follows polls fk fs) : WrenFirst fs := by
  cases fk with
  | wren => exact Precedes.wrenFirst (polls := polls) (fk := .write) h
  | write | poll => exact Precedes.wrenFirst (fk := .poll) h
  | wrdi | read | rdsr | wrsr => exact h.2

/-- R127: a whole frame after those that precede it; a poll is counted. -/
theorem Precedes.follows {polls : Nat} {fk : FrameKind} {fs : List Frame} {f : Frame} (h : Precedes polls fk fs)
    (hf : f.Begins fk) (hlen : fk = .wren → f.length = 1) (h0 : fk ≠ .poll → polls = 0) :
    Follows (if fk = .poll then polls + 1 else polls) fk (fs ++ [f]) := by
  have hwf := h.wrenFirst_concat hf
  cases fk with
  | wrdi | read | rdsr | wrsr =>
    obtain rfl : fs = [] := h
    exact ⟨rfl, hwf⟩
  | wren =>
    obtain rfl : fs = [] := h
    obtain ⟨e, rfl⟩ := List.length_eq_one_iff.mp (hlen rfl)
    exact ⟨[e], rfl, congrArg (fun b => [b]) (hf e.tx rfl)⟩
  | write =>
    obtain ⟨g, rfl, hg⟩ := h
    exact ⟨g, f, [], rfl, hg, (h0 nofun).symm, nofun⟩
  | poll =>
    obtain ⟨g, d, ps, rfl, hg, hps, hbegins⟩ := h
    refine ⟨g, d, ps ++ [f], rfl, hg, by rw [List.length_append, hps]; rfl, fun p hp => ?_⟩
    rcases List.mem_append.mp hp with hp | hp
    · exact hbegins p hp
    · rw [List.mem_singleton.mp hp]; exact hf

/-- R123: a command begins with a frame that none precedes. -/
theorem precedes_firstFrame (opc : Byte) : Precedes 0 (firstFrame opc) [] := by
  unfold firstFrame
  split_ifs <;> rfl

theorem firstFrame_ne_poll (opc : Byte) : firstFrame opc ≠ .poll := by
  unfold firstFrame
  split_ifs <;> decide

/-! ### What each FSM state knows of the frames -/

/-- R130, R134: the command sends a frame, after the frames `fs`. LIMIT may be 0 here, where one poll is made all the same. -/
structure State.Sending (s : State) (fs : List Frame) : Prop where
  kind : frameOf s.curOpc s.fk
  before : Precedes s.polls.toNat s.fk fs
  noPolls : s.fk ≠ .poll → s.polls = 0
  mayPoll : s.polls.toNat < max 1 s.limit.toNat
  policy : s.fk = .poll → s.policy = .pollStatus

/-- R127: the command has sent a whole frame, the last of `fs`. -/
structure State.Sent (s : State) (fs : List Frame) : Prop where
  kind : frameOf s.curOpc s.fk
  after : Follows s.polls.toNat s.fk fs
  noPolls : s.fk ≠ .poll → s.polls = 0
  counted : s.fk = .poll → 1 ≤ s.polls.toNat
  bound : s.polls.toNat ≤ max 1 s.limit.toNat
  policy : s.fk = .poll → s.policy = .pollStatus

/-- R137: the number of frames of a command by its result; after BusFault, that the last exchange of the last frame failed. -/
def State.Counts (s : State) (fs : List Frame) : ResultCode → Prop
  | .ok =>
    if s.curOpc = opcWrite then
      (if s.policy = .fixedDelay then fs.length = 2
      else fs.length = 2 + s.polls.toNat ∧ 1 ≤ s.polls.toNat ∧ s.polls.toNat ≤ max 1 s.limit.toNat)
    else fs.length = 1
  | .timeout => fs.length = 2 + s.polls.toNat ∧ s.limit.toNat ≤ s.polls.toNat ∧ s.polls.toNat ≤ max 1 s.limit.toNat
  | .invalidArgument => fs = []
  | .busFault => ∃ gs f e, fs = gs ++ [f] ∧ f.getLast? = some e ∧ e.err = true

/-- R137, R138: the frames of a command that ends with the result `res`. -/
def State.Reports (s : State) (fs : List Frame) (res : ResultCode) : Prop := WrenFirst fs ∧ s.Counts fs res

/-- What holds in each FSM state of a command and of the frames that it has opened. -/
def State.History (s : State) (tr : Traffic) : SeqState → Prop
  | .idle => s.done = true ∧ s.Reports tr.frames s.result
  | .check => s.done = false ∧ s.Unfailed ∧ s.polls = 0 ∧ tr.frames = []
  | .assert => s.done = false ∧ s.Unfailed ∧ s.Sending tr.closed ∧ tr.window = none
  | .xfer => s.done = false ∧ s.Unfailed ∧ s.Sending tr.closed ∧ s.si.toNat < s.flen s.fk ∧
      ∃ f, tr.window = some f ∧ f.length = s.si.toNat ∧ f.Begins s.fk
  | .gap => s.done = false ∧ ((s.Unfailed ∧ s.Sent tr.frames) ∨ (s.Faulted ∧ s.Reports tr.frames .busFault))
  | .delay => s.done = false ∧ s.Unfailed ∧ s.Reports tr.frames .ok
  | .pgap => s.done = false ∧ s.Unfailed ∧ s.Sending tr.frames
  | .finish => s.done = false ∧ s.Reports tr.frames s.res

/-- R138 holds in every FSM state. -/
theorem State.History.wrenFirst {s : State} {tr : Traffic} {st : SeqState} (h : s.History tr st) : WrenFirst tr.frames := by
  cases st with
  | idle | finish =>
    obtain ⟨-, hfirst, -⟩ := h
    exact hfirst
  | check =>
    obtain ⟨-, -, -, hnone⟩ := h
    rw [hnone]; exact nofun
  | assert =>
    obtain ⟨-, -, hsend, hwin⟩ := h
    rw [Traffic.frames, hwin, Option.toList_none, List.append_nil]
    exact hsend.before.wrenFirst
  | xfer =>
    obtain ⟨-, -, hsend, -, f, hwin, -, hf⟩ := h
    rw [Traffic.frames, hwin]
    exact hsend.before.wrenFirst_concat hf
  | gap =>
    obtain ⟨-, ⟨-, hsent⟩ | ⟨-, hrep, -⟩⟩ := h
    · exact hsent.after.wrenFirst
    · exact hrep
  | delay =>
    obtain ⟨-, -, hfirst, -⟩ := h
    exact hfirst
  | pgap =>
    obtain ⟨-, -, hsend⟩ := h
    exact hsend.before.wrenFirst

/-- DROP and the log are no part of it. -/
theorem State.History.frame {s : State} {tr : Traffic} {st : SeqState} (h : s.History tr st) (d : Bool) (l : List CycleRecord) :
    ({ s with drop := d, log := l } : State).History tr st := by
  cases st with
  | idle | check | delay | finish => exact h
  | assert =>
    obtain ⟨hd, hu, hsend, hwin⟩ := h
    exact ⟨hd, hu, { hsend with }, hwin⟩
  | xfer =>
    obtain ⟨hd, hu, hsend, hwin⟩ := h
    exact ⟨hd, hu, { hsend with }, hwin⟩
  | gap =>
    obtain ⟨hd, ⟨hu, hsent⟩ | hfault⟩ := h
    · exact ⟨hd, .inl ⟨hu, { hsent with }⟩⟩
    · exact ⟨hd, .inr hfault⟩
  | pgap =>
    obtain ⟨hd, hu, hsend⟩ := h
    exact ⟨hd, hu, { hsend with }⟩

/-! ### The transitions -/

/-- R122, R123: CHECK. -/
theorem State.history_checkEdge {s : State} {tr : Traffic} (h : s.History tr .check) :
    s.checkEdge.History (tr.after .high) s.checkEdge.st := by
  obtain ⟨hd, hu, hpolls, hnone⟩ := h
  rcases s.checkEdge_cases with ⟨hv, e⟩ | ⟨-, e⟩ <;> rw [e]
  · have hzero : (s.openFrame (firstFrame s.curOpc)).polls.toNat = 0 := congrArg BitVec.toNat hpolls
    refine ⟨hd, hu, ⟨State.frameOf_firstFrame hv, ?_, fun _ => hpolls, ?_, fun hk => absurd hk (firstFrame_ne_poll _)⟩, rfl⟩
    · rw [hzero, Traffic.after, hnone]; exact precedes_firstFrame _
    · rw [hzero]; omega
  · exact ⟨hd, by rw [Traffic.frames_after_high, hnone]; exact ⟨nofun, rfl⟩⟩

/-- R124: ASSERT. -/
theorem State.history_assertEdge {s : State} {tr : Traffic} (h : s.History tr .assert) (cut : Bool) :
    s.assertEdge.History (tr.after (.low none cut)) .xfer := by
  obtain ⟨hd, hu, hsend, hwin⟩ := h
  exact ⟨hd, hu, { hsend with }, s.flen_pos s.fk, [], by rw [Traffic.after, hwin]; rfl, rfl, begins_nil _⟩

/-- R127: the frame's last byte; a poll is counted, which was below LIMIT, or is the first. -/
theorem State.Sending.sent_of_last {s : State} {fs : List Frame} {f : Frame} (h : s.Sending fs) (hf : f.Begins s.fk)
    (hlen : f.length = s.flen s.fk) (rx : Byte) :
    (((s.capture s.fk s.si.toNat rx).frameEffect s.fk).closeFrame).Sent (fs ++ [f]) := by
  obtain ⟨hkind, hbefore, hnoPolls, hmay, hpolicy⟩ := h
  rw [← s.capture_frame s.fk s.si.toNat rx, State.frameEffect_eq]
  have hcount : ((if s.fk = .poll then s.polls + 1 else s.polls) : BitVec 16).toNat =
      if s.fk = .poll then s.polls.toNat + 1 else s.polls.toNat := by
    have := s.limit.isLt
    split
    · bv_omega
    · rfl
  refine ⟨hkind, ?after, fun hk => (if_neg hk).trans (hnoPolls hk), fun hk => ?counted, ?bound, hpolicy⟩
  case after =>
    change Follows ((if s.fk = .poll then s.polls + 1 else s.polls) : BitVec 16).toNat s.fk (fs ++ [f])
    rw [hcount]
    exact hbefore.follows hf (fun hk => by rw [hlen, hk]; rfl) fun hk => congrArg BitVec.toNat (hnoPolls hk)
  case counted => exact (Nat.succ_le_succ s.polls.toNat.zero_le).trans_eq (hcount.trans (if_pos hk)).symm
  case bound =>
    refine hcount.trans_le ?_
    change _ ≤ max 1 s.limit.toNat
    split <;> omega

/-- R125 to R128: XFER. -/
theorem State.history_xferEdge {s : State} {tr : Traffic} (hst : s.st = .xfer) (h : s.History tr .xfer) (x : CycleIn) :
    (s.xferEdge x).History (tr.after (s.wire x)) (s.xferEdge x).st := by
  obtain ⟨hd, hu, hsend, hsi, f, hwin, hlen, hf⟩ := h
  cases hdone : x.xferDone with
  | false =>
    have he : s.xferEdge x = s := by rw [State.xferEdge, if_pos hdone]
    rw [he, hst, State.wire_xfer_waiting hst hdone]
    exact ⟨hd, hu, hsend, hsi, f, by rw [Traffic.after, hwin]; exact congrArg some (List.append_nil f), hlen, hf⟩
  | true =>
    rw [State.wire_xfer_done hst hsi hdone]
    set e : Exchange := ⟨s.slotByte s.fk s.si.toNat, x.xferRx, x.xferErr && s.build.transportHasErr⟩
    have htr : tr.after (.low (some e) x.rst) = ⟨tr.closed, some (f ++ [e])⟩ := by rw [Traffic.after, hwin]; rfl
    have hbegins : Frame.Begins (f ++ [e]) s.fk := hf.concat (s := s) (by rw [hlen])
    have hlen' : (f ++ [e]).length = s.si.toNat + 1 := by rw [List.length_append, hlen, List.length_singleton]
    rw [htr]
    rcases s.xferEdge_cases x with ⟨h', -⟩ | ⟨-, hfails, he⟩ | ⟨-, -, hlt, he⟩ | ⟨-, -, hlast, he⟩
    · rw [hdone] at h'; cases h'
    · rw [he]
      exact ⟨hd, .inr ⟨⟨rfl, rfl⟩, hsend.before.wrenFirst_concat hbegins, tr.closed, f ++ [e], e, rfl, List.getLast?_concat,
        hfails⟩⟩
    · have hnext : s.si.toNat + 1 < s.flen s.fk := by omega
      have hsucc := State.toNat_si_succ hnext
      have he' : s.xferEdge x = s.takeByte x.xferRx := he
      rw [he', s.takeByte_st, hst, State.takeByte_eq]
      exact ⟨hd, hu, { hsend with }, hsucc.trans_lt hnext, f ++ [e], rfl, hlen'.trans hsucc.symm, hbegins⟩
    · have hsent := hsend.sent_of_last hbegins (by omega) x.xferRx
      rw [he]
      rw [← s.capture_frame s.fk s.si.toNat x.xferRx, State.frameEffect_eq] at hsent ⊢
      exact ⟨hd, .inl ⟨hu, hsent⟩⟩

/-- R137: a WRITE under FIXED_DELAY that ends with Ok has sent two frames. -/
theorem State.Sent.reports_of_fixedDelay {s : State} {fs : List Frame} (h : s.Sent fs) (hk : s.fk = .write)
    (hp : s.policy = .fixedDelay) : s.Reports fs .ok := by
  have hopc : s.curOpc = opcWrite := by simpa [frameOf, hk] using h.kind
  have hafter := h.after
  refine ⟨hafter.wrenFirst, (if_pos hopc).mpr ((if_pos hp).mpr ?_)⟩
  rw [hk, h.noPolls (by simp [hk])] at hafter
  obtain ⟨g, d, ps, hfs, -, hps, -⟩ := hafter
  rw [hfs, List.length_cons, List.length_cons, hps]
  rfl

/-- R130, R137: after a command's only frame. -/
theorem State.Sent.reports_of_only {s : State} {fs : List Frame} (h : s.Sent fs) (hw : ¬ (s.fk = .wren ∧ s.curOpc = opcWrite))
    (hk : s.fk ≠ .write) (hp : s.fk ≠ .poll) : s.Reports fs .ok := by
  have hafter := h.after
  have hopc : s.curOpc ≠ opcWrite := fun ho => by
    have hkind := h.kind
    simp only [frameOf, ho] at hkind
    simp_all [opcWrite, opcRead, opcWren, opcWrdi, opcRdsr, opcWrsr]
  refine ⟨hafter.wrenFirst, (if_neg hopc).mpr ?_⟩
  cases hfk : s.fk <;> rw [hfk] at hafter
  case wren =>
    obtain ⟨g, rfl, -⟩ := hafter
    rfl
  case write => exact absurd hfk hk
  case poll => exact absurd hfk hp
  case wrdi | read | rdsr | wrsr => exact hafter.1

/-- R164: after `polls` polls a WRITE has sent two frames and those. -/
theorem State.Sent.length_of_poll {s : State} {fs : List Frame} (h : s.Sent fs) (hk : s.fk = .poll) :
    fs.length = 2 + s.polls.toNat := by
  have hafter := h.after
  rw [hk] at hafter
  obtain ⟨g, d, ps, hfs, -, hps, -⟩ := hafter
  rw [hfs, List.length_cons, List.length_cons, hps]
  omega

/-- R134: another poll is due below LIMIT. -/
theorem State.Sent.sending_of_poll {s : State} {fs : List Frame} (h : s.Sent fs) (hk : s.fk = .poll)
    (hlt : ¬ s.limit ≤ s.polls) : s.Sending fs where
  kind := h.kind
  before := by
    have hafter := h.after
    rw [hk] at hafter ⊢
    exact hafter
  noPolls := h.noPolls
  mayPoll := by bv_omega
  policy := h.policy

/-- R130, R132: on to FINISH, with the result that the frames stand for. -/
theorem State.history_toFinish {s : State} {tr : Traffic} {res : ResultCode} (hd : s.done = false) (hres : s.res = res)
    (h : s.Reports tr.frames res) : s.toFinish.History (tr.after .high) s.toFinish.st := by
  subst hres
  rw [← Traffic.frames_after_high] at h
  exact ⟨hd, h⟩

/-- R134: the poll decision. -/
theorem State.history_pollDecision {s : State} {tr : Traffic} (hd : s.done = false) (hu : s.Unfailed) (hk : s.fk = .poll)
    (h : s.Sent tr.frames) : s.pollDecision.History (tr.after .high) s.pollDecision.st := by
  have hlength := h.length_of_poll hk
  have hopc : s.curOpc = opcWrite := by simpa [frameOf, hk] using h.kind
  have hpol : s.policy ≠ .fixedDelay := by rw [h.policy hk]; decide
  rcases s.pollDecision_cases with ⟨-, e⟩ | ⟨-, hle, e⟩ | ⟨-, hlt, -, e⟩ | ⟨-, hlt, -, e⟩ <;> rw [e]
  · exact State.history_toFinish hd hu.2
      ⟨h.after.wrenFirst, (if_pos hopc).mpr ((if_neg hpol).mpr ⟨hlength, h.counted hk, h.bound⟩)⟩
  · refine ⟨hd, ?_⟩
    rw [Traffic.frames_after_high]
    exact ⟨h.after.wrenFirst, hlength, hle, h.bound⟩
  · have hsend := h.sending_of_poll hk hlt
    exact ⟨hd, hu, ⟨hk ▸ hsend.kind, hk ▸ hsend.before, nofun, hsend.mayPoll, fun _ => hsend.policy hk⟩, rfl⟩
  · have hsend := h.sending_of_poll hk hlt
    exact ⟨hd, hu, by rw [Traffic.frames_after_high]; exact { hsend with }⟩

/-- R130: leaving GAP after a whole frame. -/
theorem State.history_afterGap {s : State} {tr : Traffic} (hd : s.done = false) (hu : s.Unfailed) (h : s.Sent tr.frames) :
    s.afterGap.History (tr.after .high) s.afterGap.st := by
  have hmay (hk : s.fk ≠ .poll) : s.polls.toNat < max 1 s.limit.toNat := by
    rw [h.noPolls hk]; exact lt_max_of_lt_left Nat.zero_lt_one
  have hafter := h.after
  rcases s.afterGap_cases with ⟨ha, -⟩ | ⟨-, hk, ho, e⟩ | ⟨-, hk, hp, -, e⟩ | ⟨-, hk, hp, -, e⟩ | ⟨-, hk, hp, e⟩ | ⟨-, hk, e⟩ |
    ⟨-, hw, hk, hp, e⟩
  · rw [hu.1] at ha; cases ha
  all_goals rw [e]
  · have hpoll : s.fk ≠ .poll := by rw [hk]; decide
    rw [hk] at hafter
    exact ⟨hd, hu, ⟨.inr (.inl ⟨ho, .inr (.inl rfl)⟩), hafter, fun _ => h.noPolls hpoll, hmay hpoll, nofun⟩, rfl⟩
  · exact State.history_toFinish hd hu.2 (h.reports_of_fixedDelay hk hp)
  · refine ⟨hd, hu, ?_⟩
    rw [Traffic.frames_after_high]
    exact h.reports_of_fixedDelay hk hp
  · have hpoll : s.fk ≠ .poll := by rw [hk]; decide
    rw [hk] at hafter
    exact ⟨hd, hu, ⟨frameOf_poll_of_write (hk ▸ h.kind), hafter, nofun, hmay hpoll, fun _ => hp⟩, rfl⟩
  · exact State.history_pollDecision hd hu hk h
  · exact State.history_toFinish hd hu.2 (h.reports_of_only hw hk hp)

/-- R129: GAP. -/
theorem State.history_gapEdge {s : State} {tr : Traffic} (hst : s.st = .gap) (h : s.History tr .gap) :
    s.gapEdge.History (tr.after .high) s.gapEdge.st := by
  obtain ⟨hd, hcase⟩ := h
  unfold State.gapEdge
  split
  case isTrue =>
    rw [State.countDown_st, hst]
    refine ⟨hd, ?_⟩
    rw [Traffic.frames_after_high]
    rcases hcase with ⟨hu, hsent⟩ | hfault
    · exact .inl ⟨hu, { hsent with }⟩
    · exact .inr hfault
  case isFalse =>
    rcases hcase with ⟨hu, hsent⟩ | ⟨⟨ha, hres⟩, hrep⟩
    · exact State.history_afterGap hd hu hsent
    · have he : s.afterGap = s.toFinish := if_pos ha
      rw [he]
      exact State.history_toFinish hd hres hrep

/-- R132: DELAY. -/
theorem State.history_delayEdge {s : State} {tr : Traffic} (hst : s.st = .delay) (h : s.History tr .delay) :
    s.delayEdge.History (tr.after .high) s.delayEdge.st := by
  obtain ⟨hd, hu, hrep⟩ := h
  unfold State.delayEdge
  split
  · rw [State.countDown_st, hst]
    rw [← Traffic.frames_after_high] at hrep
    exact ⟨hd, hu, hrep⟩
  · exact State.history_toFinish hd hu.2 hrep

/-- R133: PGAP. -/
theorem State.history_pgapEdge {s : State} {tr : Traffic} (hst : s.st = .pgap) (h : s.History tr .pgap) :
    s.pgapEdge.History (tr.after .high) s.pgapEdge.st := by
  obtain ⟨hd, hu, hsend⟩ := h
  unfold State.pgapEdge
  split
  · rw [State.countDown_st, hst]
    refine ⟨hd, hu, ?_⟩
    rw [Traffic.frames_after_high]
    exact { hsend with }
  · exact ⟨hd, hu, { hsend with }, rfl⟩

/-- Every transition of R141 leads to a state that knows of the frames what its FSM state asks for. -/
theorem State.history_fsmEdge {s : State} {tr : Traffic} (busy : s.st ≠ .idle) (h : s.History tr s.st) (x : CycleIn) :
    (s.fsmEdge x).History (tr.after (s.wire x)) (s.fsmEdge x).st := by
  have high (hcs : s.csN = true) : s.wire x = .high := State.wire_of_csN hcs x
  unfold State.fsmEdge
  cases hst : s.st <;> rw [hst] at h <;> dsimp only
  case idle => exact absurd hst busy
  case assert => rw [State.wire_assert hst]; exact State.history_assertEdge h x.rst
  case xfer => exact State.history_xferEdge hst h x
  all_goals rw [high (by rw [State.csN, hst])]
  case check => exact State.history_checkEdge h
  case gap => exact State.history_gapEdge hst h
  case delay => exact State.history_delayEdge hst h
  case pgap => exact State.history_pgapEdge hst h
  case finish =>
    obtain ⟨-, hrep⟩ := h
    rw [← Traffic.frames_after_high] at hrep
    exact ⟨rfl, hrep⟩

/-- A cycle without reset of a busy block, whatever the host does in it. -/
theorem State.history_edge {s : State} {tr : Traffic} (busy : s.st ≠ .idle) (h : s.History tr s.st) {x : CycleIn}
    (hr : x.rst = false) : (s.edge x).History (tr.after (s.wire x)) (s.edge x).st := by
  rw [State.edge_of_busy hr busy]
  rcases State.hostEffect_of_busy busy x.host with e | e <;> rw [e]
  · exact State.history_fsmEdge busy h x
  · exact State.history_fsmEdge (s := s.setDrop) busy (h.frame true s.log) x

/-! ### Over the cycles of a command -/

/-- The cycles `rs` have led from the idle state `s` to `t`, the first of them with a host write of CMD. The frames are in the
order of R138 in any case, and `t` knows of them if it is busy, or if no cycle was a reset. -/
structure Ran (s t : State) (w : Word) (rs : List CycleRecord) : Prop where
  log : t.log = s.log ++ rs
  build : t.build = s.build
  wrenFirst : WrenFirst (trafficOf (rs.map (CycleRecord.wire s.build.transportHasErr))).frames
  history : t.st ≠ .idle ∨ noReset (rs.map CycleRecord.inputs) →
    t.History (trafficOf (rs.map (CycleRecord.wire s.build.transportHasErr))) t.st
  config : t.st ≠ .idle ∨ noReset (rs.map CycleRecord.inputs) →
    t.lastCmd = w ∧ t.policy = s.policy ∧ t.limit = s.limit

/-- The cycle of the host's write. -/
theorem Ran.start {s : State} {x : CycleIn} {w : Word} (hst : s.st = .idle) (hx : x.host = hw 0x000 w) :
    Ran s (s.cycle x) w [⟨x, s.outputs x⟩] := by
  have hwire : trafficOf [s.wire x] = ⟨[], none⟩ := by
    rw [State.wire_of_csN (by rw [State.csN, hst])]; rfl
  have hfirst : WrenFirst (trafficOf [s.wire x]).frames := by rw [hwire]; exact nofun
  rcases Bool.eq_false_or_eq_true x.rst with hr | hr
  · have hidle : (s.cycle x).st = .idle := by rw [State.cycle_st, State.edge_of_rst hr]; rfl
    have hnever : ¬ ((s.cycle x).st ≠ .idle ∨ noReset [x]) := fun h =>
      h.elim (fun hbusy => hbusy hidle) fun hnone => by simpa [hr] using hnone x (List.mem_singleton_self x)
    exact ⟨rfl, State.edge_build s x, hfirst, fun h => absurd h hnever, fun h => absurd h hnever⟩
  · have hcycle : s.cycle x = (s.accept w).withEnv s.pending (s.log ++ [⟨x, s.outputs x⟩]) := by
      rw [State.cycle, State.edge_of_idle hr hst, hx, State.hostEffect_hw_cmd hst]; rfl
    rw [hcycle]
    exact ⟨rfl, rfl, hfirst, fun _ => ⟨rfl, ⟨rfl, rfl⟩, rfl, congrArg Traffic.frames hwire⟩, fun _ => ⟨rfl, rfl, rfl⟩⟩

/-- A cycle in which the block is busy. -/
theorem Ran.cycle {s t : State} {w : Word} {rs : List CycleRecord} (h : Ran s t w rs) (busy : t.st ≠ .idle) (x : CycleIn) :
    Ran s (t.cycle x) w (rs ++ [⟨x, t.outputs x⟩]) := by
  obtain ⟨hlog, hbuild, -, hhist, hconfig⟩ := h
  have hhist := hhist (.inl busy)
  obtain ⟨hcmd, hpolicy, hlimit⟩ := hconfig (.inl busy)
  have htr : trafficOf ((rs ++ [(⟨x, t.outputs x⟩ : CycleRecord)]).map (CycleRecord.wire s.build.transportHasErr)) =
      (trafficOf (rs.map (CycleRecord.wire s.build.transportHasErr))).after (t.wire x) := by
    rw [List.map_append, List.map_singleton, trafficOf_concat, ← hbuild]; rfl
  refine ⟨by rw [State.cycle_log, hlog, List.append_assoc], by rw [State.cycle_build, State.edge_build, hbuild], ?_, ?_, ?_⟩
  · rw [htr]
    exact (State.history_fsmEdge busy hhist x).wrenFirst
  all_goals
    intro hlive
    have hr : x.rst = false := by
      by_contra hrst
      have hrst : x.rst = true := by simpa using hrst
      rcases hlive with hbusy | hnone
      · exact hbusy (by rw [State.cycle_st, State.edge_of_rst hrst]; rfl)
      · have := hnone x (by simp)
        rw [hrst] at this; cases this
  · rw [htr]
    exact (State.history_edge busy hhist hr).frame (t.edge x).drop _
  · obtain ⟨hcmd', hpolicy', -, hlimit', -⟩ := State.edge_config_of_busy hr busy
    exact ⟨hcmd'.trans hcmd, hpolicy'.trans hpolicy, hlimit'.trans hlimit⟩

/-- A command that is issued to an idle block. -/
theorem State.issue_ran {s : State} (hst : s.st = .idle) (w : Word) :
    ∃ t xs rs, s.issue w = t.withPending xs ∧ Ran s t w rs ∧ (noReset s.pending → noReset (rs.map CycleRecord.inputs)) := by
  rw [State.issue_of_idle hst]
  have hnow : noReset s.pending → s.currentInputs.rst = false := fun h => by
    unfold State.currentInputs
    cases hp : s.pending with
    | nil => rfl
    | cons x xs => exact h x (by rw [hp]; exact List.mem_cons_self)
  obtain ⟨rs, hran, hrs⟩ := State.runBusy_induct_of
    (P := fun u => ∃ rs, Ran s u w rs ∧ (noReset s.pending → noReset (rs.map CycleRecord.inputs)))
    (Q := fun x => noReset s.pending → x.rst = false)
    (fun u x busy hx ⟨rs, hran, hrs⟩ => ⟨_, hran.cycle busy x, fun h => by
      rw [List.map_append]
      exact List.forall_mem_append.mpr ⟨hrs h, List.forall_mem_singleton.mpr (hx h)⟩⟩)
    _ s.pending.tail (fun x hx h => h x (List.mem_of_mem_tail hx))
    ⟨_, Ran.start (x := { s.currentInputs with host := hw 0x000 w }) hst rfl, fun h => List.forall_mem_singleton.mpr (hnow h)⟩
  exact ⟨_, _, rs, rfl, hran, hrs⟩

/-- The frames of the cycles of a command. -/
theorem Ran.framesBetween_eq {s t : State} {w : Word} {rs : List CycleRecord} (h : Ran s t w rs) (xs : List CycleIn) :
    framesBetween s (t.withPending xs) = (trafficOf (rs.map (CycleRecord.wire s.build.transportHasErr))).frames := by
  rw [Machine.framesBetween_eq (t := t.withPending xs) h.log, frames_trafficOf]

/-- Settles O52: it holds at the end of every run. -/
theorem writeFrameFollowsWrenFrame : Obligations.WriteFrameFollowsWrenFrame := by
  intro s t i n fr hst _ hexec hn hfr
  obtain ⟨u, xs, rs, hrun, hran, -⟩ := State.issue_ran hst (encode i)
  rw [exec_eq_issue, hrun] at hexec
  cases hexec
  rw [hran.framesBetween_eq] at hn ⊢
  exact hran.wrenFirst n fr hn hfr

/-- R35: DONE says whether the command has ended. -/
theorem State.History.done_iff {s : State} {tr : Traffic} {st : SeqState} (h : s.History tr st) : s.done = true ↔ st = .idle := by
  cases st with
  | idle => simp [h.1]
  | check | assert | xfer | gap | delay | pgap | finish => simp [h.1]

/-- R93: which commands send the WRITE frames. -/
theorem opcField_encode_eq_opcWrite_iff (i : Instr) : opcField (encode i) = opcWrite ↔ ∃ addr len, i = .write addr len := by
  cases i with
  | read addr len => have h := (Laws.EncodedFields.read addr len).1; simp [h, opcWrite]
  | write addr len => have h := (Laws.EncodedFields.write addr len).1; simp [h, opcWrite]
  | wren a b => have h := (Laws.EncodedFields.wren a b).1; simp [h, opcWrite]
  | wrdi a b => have h := (Laws.EncodedFields.wrdi a b).1; simp [h, opcWrite]
  | rdsr a b => have h := (Laws.EncodedFields.rdsr a b).1; simp [h, opcWrite]
  | wrsr value a => have h := (Laws.EncodedFields.wrsr value a).1; simp [h, opcWrite]

/-- Settles O54: what the idle state at the end of a run knows of the frames. -/
theorem frameCount : Obligations.FrameCount := by
  intro s t i hst hlimit _ hnoReset hexec hdone
  obtain ⟨u, xs, rs, hrun, hran, hrs⟩ := State.issue_ran hst (encode i)
  rw [exec_eq_issue, hrun] at hexec
  cases hexec
  have hhist := hran.history (.inr (hrs hnoReset))
  obtain ⟨hcmd, hpolicy, hlim⟩ := hran.config (.inr (hrs hnoReset))
  have hidle : u.st = .idle := hhist.done_iff.mp hdone
  rw [hidle] at hhist
  obtain ⟨-, -, hcount⟩ := hhist
  have hpos : max 1 u.limit.toNat = s.limit.toNat := by
    rw [hlim]; bv_omega
  rw [hran.framesBetween_eq]
  refine ⟨fun h => ?ok, fun h => ?timeout, fun h => ?invalid, fun h => ?fault⟩
  all_goals
    change u.result = _ at h
    rw [h] at hcount
  case ok =>
    have hopc : u.curOpc = opcWrite ↔ ∃ addr len, i = .write addr len := by
      rw [State.curOpc, hcmd, opcField_encode_eq_opcWrite_iff]
    cases i with
    | read | wren | wrdi | rdsr | wrsr => exact (if_neg (mt hopc.mp (by simp))).mp hcount
    | write addr len =>
      have hcount := (if_pos (hopc.mpr ⟨addr, len, rfl⟩)).mp hcount
      rw [hpos, hpolicy] at hcount
      exact hcount
  case timeout =>
    obtain ⟨hlen, hge, hle⟩ := hcount
    rw [hlim] at hge
    omega
  case invalid => exact congrArg List.length hcount
  case fault => exact hcount

end Sys2Proof.Machine
end

/-! SUPPORT. READ and WRITE over the calm cycles in which they complete or time out (obligations O33 to O36). -/

section
namespace Sys2Proof.Machine

/-! ### READ -/

theorem State.BusyOver.length_eq {s t : State} {xs : List CycleIn} {ws : List WireCycle} (h : s.BusyOver xs ws t) :
    ws.length = xs.length := by
  induction h with
  | nil => rfl
  | cons _ _ _ ih => rw [List.length_cons, List.length_cons, ih]

/-- R90: the word of a READ or WRITE with a LEN in range, as a number. -/
theorem commandWord_transfer {len : Nat} (hlen : len ≤ 0xFF) (addr : Addr) (opc : Byte) :
    commandWord (BitVec.ofNat 8 len) addr opc = BitVec.ofNat 32 (len * 2 ^ 24 + addr.toNat * 2 ^ 8 + opc.toNat) := by
  rw [commandWord_eq_ofNat, BitVec.toNat_ofNat, Nat.mod_eq_of_lt (by omega)]

/-- Settles O33: READ from CHECK to the end, as a run from the idle block. -/
theorem readCompletes : Obligations.ReadCompletes := by
  intro s addr len x c f fr rest hdr data hl hswf hbwf hst h1 hb hp hx hc hf hhdr hdata hfr
  subst hdata
  have h255 := le_len_max hl hb
  have hopc : (s.accept (encode (.read addr data.length))).curOpc = opcRead := (Laws.EncodedFields.read addr data.length).1
  obtain ⟨haddr, harg⟩ := s.operands_accept (.inl rfl) h255 (addr := addr)
  obtain ⟨ws, si, stage, hws, hshows, hstage⟩ := State.BusyOver.read (s := s.accept (encode (.read addr data.length))) hl rfl hopc rfl hswf
    harg h1 hb hc hf hhdr hfr
  obtain ⟨rs, hrun, hrs⟩ := State.issue_of_busyOver (rest := rest) hst (by rw [hp]; simp) hx hws rfl
  set t := State.finishCommand _
  have hlog : (s.issue (encode (.read addr data.length))).log = s.log ++ rs := by rw [hrun]; rfl
  have hcount : rs.length = fr.length + 3 := by
    rw [← List.length_map (f := CycleRecord.wire s.build.transportHasErr), hrs, List.length_cons, hws.length_eq]
    simp
  refine ⟨_, exec_eq_issue _ s, ?_⟩
  rw [framesBetween_eq hlog, elapsed_eq hlog, hrs, hshows.high.frames, haddr, hrun]
  refine ⟨rfl, rfl, rfl, rfl, commandWord_transfer h255 addr opcRead, rfl, rfl, fun i => ?_, rfl, rfl, rfl, rfl, rfl, rfl, hcount, rfl⟩
  have hread := State.read_commitStage
    (s := ((s.accept (encode (.read addr data.length))).openFrame .read).staged si stage) hbwf data.length i
  refine hread.trans ?_
  split
  case isTrue h => rw [dif_pos h.1]; exact hstage i h.1
  case isFalse h => rw [dif_neg fun hi => h ⟨hi, hi.trans_le hb⟩]; rfl

/-! ### WRITE -/

/-- R127, R129: the last cycle of the GAP that follows a WRITE's data frame. -/
def State.dataSent (s : State) (si : BitVec 9) : State := { s.openFrame .write with si := si, cnt := 1, st := .gap }

/-- R162, R97: a WRITE's data frame, after which its wait begins. -/
theorem State.BusyOver.dataFrame {s : State} {rx : List Byte} {xs : List CycleIn} (hl : s.build.Legal) (ha : s.abort = false)
    (hlen : rx.length = 3 + s.curArg.toNat) (h : frameCycles s.build.csGap.toNat rx xs) :
    ∃ ws si, (s.openFrame .write).BusyOver xs ws (s.dataSent si).startWait ∧
      Shows ws [0x02 :: addrHigh s.curAddr :: addrLow s.curAddr :: (List.range s.curArg.toNat).map s.buf.read] := by
  obtain ⟨ws, si, hws, hsent⟩ := State.BusyOver.frame_of_discards (s := s.openFrame .write) hl rfl trivial hlen h
  change (s.openFrame .write).BusyOver xs ws (s.dataSent si).afterGap at hws
  rw [State.afterGap_of_write (s := s.dataSent si) ha rfl] at hws
  rw [← s.map_slotByte_write]
  exact ⟨ws, si, hws, hsent⟩

/-- R163: the wait of a WRITE under FIXED_DELAY, WDELAY 0 included. -/
theorem State.BusyOver.fixedDelay {s : State} {xs : List CycleIn} (hp : s.policy = .fixedDelay)
    (hx : calmCycles s.wdelay.toNat xs) :
    ∃ ws cnt, s.startWait.BusyOver xs ws ({ s with cnt := cnt } : State).toFinish ∧ Shows ws [] := by
  by_cases h0 : s.wdelay = 0
  · rw [h0] at hx
    obtain rfl : xs = [] := List.eq_nil_of_length_eq_zero hx.1
    have he : s.startWait = s.toFinish := by rw [s.startWait_eq, if_pos hp, if_pos h0]
    rw [he]
    exact ⟨[], s.cnt, .nil _, shows_nil⟩
  · have he : s.startWait = s.startDelay := by rw [s.startWait_eq, if_pos hp, if_neg h0]
    have hpos : s.wdelay.toNat ≠ 0 := fun hz => h0 (BitVec.eq_of_toNat_eq hz)
    have hwait := State.BusyOver.wait (s := s.startDelay) (t := s.startDelay.countedDown.toFinish) (.inr (.inl rfl)) rfl hpos hx
      fun _ => rfl
    rw [he]
    exact ⟨_, 1, hwait, shows_replicate_high _⟩

/-- R162: a WRITE from the first frame to the end of its data frame. -/
theorem State.BusyOver.writeFrames {s : State} {e : Byte} {rx : List Byte} {en fr : List CycleIn} (hl : s.build.Legal)
    (hopc : s.curOpc = opcWrite) (ha : s.abort = false) (hlen : rx.length = 3 + s.curArg.toNat)
    (hen : frameCycles s.build.csGap.toNat [e] en) (hfr : frameCycles s.build.csGap.toNat rx fr) :
    ∃ ws si, (s.openFrame .wren).BusyOver (en ++ fr) ws (s.dataSent si).startWait ∧
      Shows ws [[0x06], 0x02 :: addrHigh s.curAddr :: addrLow s.curAddr :: (List.range s.curArg.toNat).map s.buf.read] := by
  obtain ⟨ws, si, hws, hsent⟩ := State.BusyOver.enable hl hopc ha hen
  obtain ⟨vs, si', hvs, hsent'⟩ := State.BusyOver.dataFrame (s := s.settled si) hl ha hlen hfr
  exact ⟨_, si', hws.append hvs, hsent.append hsent'⟩

/-- Settles O34: CHECK, the two frames, the wait of WDELAY cycles, and FINISH. -/
theorem writeUnderFixedDelayCompletes : Obligations.WriteUnderFixedDelayCompletes := by
  intro s addr len x c f en fr d rest e rx hl hst h1 hb hpol hp hx hc hf hen hrx hfr hd
  obtain ⟨hopc, haddr, harg, hv⟩ := s.accept_write addr hl h1 hb
  set u := s.accept (encode (.write addr len)) with hu
  obtain ⟨ws, si, hws, hsent⟩ := State.BusyOver.writeFrames (s := u) hl hopc rfl (harg.symm ▸ hrx) hen hfr
  obtain ⟨vs, cnt, hvs, hwait⟩ := State.BusyOver.fixedDelay
    (s := u.dataSent si) hpol hd
  obtain ⟨l, hrun, hframes⟩ := State.issue_of_command hst hp hx hc hf hv (hopc ▸ rfl) (hws.append hvs) rfl (hsent.append hwait)
  refine ⟨_, exec_eq_issue _ s, ?_⟩
  rw [hframes, harg, haddr, hrun]
  exact ⟨rfl, rfl, rfl, rfl, commandWord_transfer (le_len_max hl hb) addr opcWrite, rfl, rfl, rfl, rfl, rfl, rfl, rfl, rfl, rfl, rfl,
    rfl⟩

/-- Settles O35: CHECK, the two frames, the polls, of which the last reads bit 0 = 0, and FINISH. -/
theorem writeUnderPollStatusCompletes : Obligations.WriteUnderPollStatusCompletes := by
  intro s addr len x c f en fr ps rest e last rx waiting hl hst h1 hb hpol hp hx hc hf hen hrx hfr hps hw hlast hlimit
  obtain ⟨hopc, haddr, harg, hv⟩ := s.accept_write addr hl h1 hb
  set u := s.accept (encode (.write addr len)) with hu
  obtain ⟨ws, si, hws, hsent⟩ := State.BusyOver.writeFrames (s := u) hl hopc rfl (harg.symm ▸ hrx) hen hfr
  rw [State.startWait_of_pollStatus (s := u.dataSent si) hpol] at hws
  have hbound : (0 : BitVec 16).toNat + waiting.length + 1 ≤ s.limit.toNat := by simpa using hlimit
  obtain ⟨vs, hvs, hpolls⟩ := State.BusyOver.polls
    (s := (u.dataSent si).openFrame .poll) hl rfl rfl rfl hps hw hlast hbound
  obtain ⟨l, hrun, hframes⟩ := State.issue_of_command hst hp hx hc hf hv (hopc ▸ rfl) (hws.append hvs) rfl (hsent.append hpolls)
  have hcount : (0#16 + BitVec.ofNat 16 (waiting.length + 1)).toNat = waiting.length + 1 := by
    have := s.limit.isLt
    rw [BitVec.zero_add, BitVec.toNat_ofNat, Nat.mod_eq_of_lt (by omega)]
  refine ⟨_, exec_eq_issue _ s, ?_⟩
  rw [hframes, harg, haddr, hrun]
  exact ⟨rfl, rfl, rfl, rfl, commandWord_transfer (le_len_max hl hb) addr opcWrite, hcount, rfl, rfl, rfl, rfl, rfl, rfl, rfl, rfl,
    rfl, rfl⟩

/-- R164: the cycles of some polls, cut before the last poll. -/
theorem pollCycles_concat {gap pollGap : Nat} {waiting : List Byte} {last : Byte} {xs : List CycleIn}
    (h : pollCycles gap pollGap (waiting ++ [last]) xs) :
    ∃ ps d b0 fr, xs = ps ++ d ++ fr ∧ pollCycles gap pollGap waiting ps ∧
      calmCycles (if waiting = [] then 0 else pollGap) d ∧ frameCycles gap [b0, last] fr := by
  induction waiting generalizing xs with
  | nil =>
    obtain ⟨b0, hfr⟩ := h
    exact ⟨[], [], b0, xs, rfl, rfl, ⟨rfl, nofun⟩, hfr⟩
  | cons b bs ih =>
    obtain ⟨b', bs', hbs⟩ := List.exists_cons_of_ne_nil (List.append_ne_nil_of_right_ne_nil bs (List.cons_ne_nil last []))
    rw [List.cons_append, hbs] at h
    obtain ⟨b0, fr, d, tail, rfl, hfr, hd, htail⟩ := h
    rw [← hbs] at htail
    obtain ⟨ps, d', b0', fr', rfl, hps, hd', hfr'⟩ := ih htail
    cases bs with
    | nil =>
      obtain rfl : ps = [] := hps
      obtain rfl : d' = [] := List.eq_nil_of_length_eq_zero hd'.1
      exact ⟨fr, d, b0', fr', by simp, ⟨b0, hfr⟩, hd, hfr'⟩
    | cons c cs =>
      exact ⟨fr ++ d ++ ps, d', b0', fr', by simp, ⟨b0, fr, d, ps, rfl, hfr, hd, hps⟩, hd', hfr'⟩

/-- R134, R202: a poll that reads bit 0 = 1 as the LIMIT-th ends the command with Timeout. -/
theorem State.pollDecision_of_limit {s : State} (hwip : writeInProgress s.sr = true) (h : s.limit ≤ s.polls) :
    s.pollDecision = s.raise .timeout := by
  rw [State.pollDecision, hwip, if_neg (by decide), if_pos h]

/-- Settles O36: CHECK, the two frames, LIMIT polls, of which the last decides for Timeout, and FINISH. -/
theorem writeTimesOutAfterLimitPolls : Obligations.WriteTimesOutAfterLimitPolls := by
  intro s addr len x c f en fr ps rest e last rx waiting hl hst h1 hb hpol hp hx hc hf hen hrx hfr hps hw hlimit
  obtain ⟨hopc, -, harg, hv⟩ := s.accept_write addr hl h1 hb
  set u := s.accept (encode (.write addr len)) with hu
  obtain ⟨ws, si, hws, hsent⟩ := State.BusyOver.writeFrames (s := u) hl hopc rfl (harg.symm ▸ hrx) hen hfr
  rw [State.startWait_of_pollStatus (s := u.dataSent si) hpol] at hws
  obtain ⟨ps, d, b0, lastFrame, rfl, hps, hd, hlast⟩ := pollCycles_concat hps
  set v := (u.dataSent si).openFrame .poll
  have hzero : v.polls.toNat = 0 := rfl
  obtain ⟨vs, si', cnt, polls, hvs, hpolls, hsent'⟩ := State.BusyOver.pollsWaiting (s := v) hl rfl rfl rfl hps hd
    (fun b hb => hw b (List.mem_append_left _ hb)) (by rw [hzero]; change _ < s.limit.toNat; omega)
  obtain ⟨us, hus, hsent''⟩ := State.BusyOver.poll (s := v.afterPolls (waiting.getLastD v.sr) polls si' cnt) hl rfl rfl rfl hlast
  have hcount : polls + 1 = s.limit := by bv_omega
  have hwip : writeInProgress last = true := hw last (List.mem_append_right _ List.mem_cons_self)
  set w : State := { (v.afterPolls (waiting.getLastD v.sr) polls si' cnt).polled 1 last with st := .gap }
  rw [State.pollDecision_of_limit (s := w) hwip (hcount ▸ BitVec.le_refl _)] at hus
  obtain ⟨l, hrun, hframes⟩ := State.issue_of_command (rest := rest) hst (by rw [hp]; simp) hx hc hf hv (hopc ▸ rfl)
    ((hws.append hvs).append hus) rfl ((hsent.append hsent').append hsent'')
  have hnum : (framesBetween s (s.issue (encode (.write addr len)))).length = 2 + s.limit.toNat := by
    rw [← List.length_map (f := Frame.sent), hframes]
    simp only [List.length_append, List.length_cons, List.length_nil, List.length_replicate]
    omega
  refine ⟨_, exec_eq_issue _ s, ?_⟩
  rw [hnum, hrun]
  exact ⟨rfl, rfl, rfl, rfl, hcount, rfl, rfl, rfl, rfl, rfl⟩

end Sys2Proof.Machine
end

/-! SUPPORT. A command over any cycles: what holds when it is accepted and is kept by every cycle of the busy block holds where its
run ends, together with what a device has seen of it. -/

section
namespace Sys2Proof.Machine

/-! ### The exchanges on the wire -/

/-- The exchange that a device sees complete in a cycle. -/
def WireCycle.exchange? : WireCycle → Option Exchange
  | .high => none
  | .low e _ => e

/-- The exchanges of some cycles of the wire. -/
def exchangesOnWire (ws : List WireCycle) : List Exchange := ws.filterMap WireCycle.exchange?

/-- The transport's answers in some cycles of the wire. -/
def repliesOnWire (ws : List WireCycle) : List Reply := (exchangesOnWire ws).map fun e => ⟨e.rx, e.err⟩

theorem repliesOnWire_concat_of_none {ws : List WireCycle} {w : WireCycle} (h : w.exchange? = none) :
    repliesOnWire (ws ++ [w]) = repliesOnWire ws := by
  simp [repliesOnWire, exchangesOnWire, h]

theorem repliesOnWire_concat_of_some {ws : List WireCycle} {w : WireCycle} {e : Exchange} (h : w.exchange? = some e) :
    repliesOnWire (ws ++ [w]) = repliesOnWire ws ++ [⟨e.rx, e.err⟩] := by
  simp [repliesOnWire, exchangesOnWire, h]

/-- R38: a byte is exchanged with chip-select low only, so that a device sees every exchange. -/
theorem State.exchange?_wire (s : State) (x : CycleIn) :
    (s.wire x).exchange? = CycleRecord.exchange? s.build.transportHasErr ⟨x, s.outputs x⟩ := by
  unfold State.wire CycleRecord.wire
  split
  case isTrue hcs =>
    have hreq : s.xferReq = false := by
      cases hst : s.st <;> simp_all [State.outputs, State.csN, State.xferReq]
    simp [WireCycle.exchange?, CycleRecord.exchange?, State.outputs, hreq]
  case isFalse => rfl

/-- R125: outside XFER nothing is exchanged. -/
theorem State.exchange?_wire_of_not_xfer {s : State} (h : s.st ≠ .xfer) (x : CycleIn) : (s.wire x).exchange? = none := by
  rw [s.exchange?_wire, CycleRecord.exchange?, if_neg]
  simp [State.outputs, State.xferReq, h]

/-! ### The run of a command -/

/-- `u` runs the command word `w` with the configuration of `s`. -/
structure State.Issued (s : State) (w : Word) (u : State) : Prop where
  lastCmd : u.lastCmd = w
  policy : u.policy = s.policy
  wdelay : u.wdelay = s.wdelay
  limit : u.limit = s.limit
  pollGap : u.pollGap = s.pollGap
  build : u.build = s.build

/-- R33, R80: a busy block keeps its command and its configuration. -/
theorem State.Issued.cycle {s u : State} {w : Word} (h : s.Issued w u) {x : CycleIn} (hr : x.rst = false) (busy : u.st ≠ .idle) :
    s.Issued w (u.cycle x) := by
  obtain ⟨hcmd, hpol, hwd, hlim, hgap, hbuild⟩ := h
  obtain ⟨hcmd', hpol', hwd', hlim', hgap'⟩ := State.edge_config_of_busy hr busy
  exact ⟨hcmd'.trans hcmd, hpol'.trans hpol, hwd'.trans hwd, hlim'.trans hlim, hgap'.trans hgap, (u.edge_build x).trans hbuild⟩

/-- The idle block `s` has accepted the word `w`, and come to `u` over cycles without reset, of which a device has seen `ws` from
the cycle after the acceptance on; `R` holds of the two. -/
structure RanOver (R : State → List WireCycle → Prop) (s : State) (w : Word) (u : State) (rs : List CycleRecord)
    (ws : List WireCycle) : Prop where
  ran : Ran s u w rs
  noReset : noReset (rs.map CycleRecord.inputs)
  wire : rs.map (CycleRecord.wire s.build.transportHasErr) = .high :: ws
  exchanges : exchanges s.build.transportHasErr rs = exchangesOnWire ws
  issued : s.Issued w u
  holds : R u ws

section
variable {R : State → List WireCycle → Prop} {s : State} {w : Word}

/-- R121: the cycle of the acceptance. -/
theorem RanOver.start (hst : s.st = .idle) (h0 : R (s.accept w) [])
    (henv : ∀ u ws d l, R u ws → R { u with drop := d, log := l } ws) {x : CycleIn} (hr : x.rst = false)
    (hx : x.host = hw 0x000 w) : RanOver R s w (s.cycle x) [⟨x, s.outputs x⟩] [] := by
  have hhigh : s.wire x = .high := State.wire_of_csN (by rw [State.csN, hst]) x
  have hnone := s.exchange?_wire x
  rw [hhigh] at hnone
  have hcycle : s.cycle x = { s.accept w with drop := false, log := s.log ++ [⟨x, s.outputs x⟩] } := by
    rw [State.cycle, State.edge_of_idle hr hst, hx, State.hostEffect_hw_cmd hst]; rfl
  refine ⟨Ran.start hst hx, List.forall_mem_singleton.mpr hr, congrArg (fun v => [v]) hhigh, ?_, ?_, ?_⟩
  · simp only [Machine.exchanges, List.filterMap_cons, ← hnone]; rfl
  · rw [hcycle]; exact ⟨rfl, rfl, rfl, rfl, rfl, rfl⟩
  · rw [hcycle]; exact henv _ _ _ _ h0

/-- A cycle without reset in which the block is busy. -/
theorem RanOver.cycle (henv : ∀ u ws d l, R u ws → R { u with drop := d, log := l } ws)
    (hc : ∀ u ws x, s.Issued w u → u.History (trafficOf ws) u.st → u.st ≠ .idle → x.rst = false → R u ws →
      R (u.fsmEdge x) (ws ++ [u.wire x]))
    {u : State} {rs : List CycleRecord} {ws : List WireCycle} (h : RanOver R s w u rs ws) (busy : u.st ≠ .idle) {x : CycleIn}
    (hr : x.rst = false) : RanOver R s w (u.cycle x) (rs ++ [⟨x, u.outputs x⟩]) (ws ++ [u.wire x]) := by
  obtain ⟨hran, hnr, hwire, hexch, hissued, hR⟩ := h
  have hhist := hran.history (.inl busy)
  rw [hwire] at hhist
  change u.History (trafficOf ws) u.st at hhist
  have hedge : R (u.edge x) (ws ++ [u.wire x]) := by
    rw [State.edge_of_busy hr busy]
    rcases State.hostEffect_of_busy busy x.host with e | e <;> rw [e]
    · exact hc u ws x hissued hhist busy hr hR
    · exact hc u.setDrop ws x { hissued with } (hhist.frame true u.log) busy hr (henv u ws true u.log hR)
  refine ⟨hran.cycle busy x, ?_, ?_, ?_, hissued.cycle hr busy, henv _ _ (u.edge x).drop _ hedge⟩
  · rw [List.map_append]
    exact List.forall_mem_append.mpr ⟨hnr, List.forall_mem_singleton.mpr hr⟩
  · rw [List.map_append, hwire, ← hissued.build]; rfl
  · rw [Machine.exchanges, List.filterMap_append, exchangesOnWire, List.filterMap_append]
    refine congrArg₂ _ hexch ?_
    rw [List.filterMap_cons, List.filterMap_cons, u.exchange?_wire, hissued.build]
    rfl

/-- What the acceptance of a command brings about, and every cycle of the busy block keeps, holds where the run of the command ends,
unless a reset has ended it. The environment's fields and DROP are to be no part of it. -/
theorem State.issue_over (hst : s.st = .idle) (h0 : R (s.accept w) [])
    (henv : ∀ u ws d l, R u ws → R { u with drop := d, log := l } ws)
    (hc : ∀ u ws x, s.Issued w u → u.History (trafficOf ws) u.st → u.st ≠ .idle → x.rst = false → R u ws →
      R (u.fsmEdge x) (ws ++ [u.wire x]))
    (hend : noReset s.pending ∨ (s.issue w).done = true) :
      ∃ u xs rs ws, s.issue w = u.withPending xs ∧ RanOver R s w u rs ws := by
  have hreset (u : State) {x : CycleIn} (hx : x.rst = true) : (u.cycle x).st = .idle ∧ (u.cycle x).done = false := by
    rw [State.cycle_st, State.cycle_done, State.edge_of_rst hx]; exact ⟨rfl, rfl⟩
  have hnow : s.currentInputs.rst = true → ¬ noReset s.pending := fun hr h => by
    unfold State.currentInputs at hr
    cases hp : s.pending with
    | nil => rw [hp] at hr; cases hr
    | cons x xs =>
      have hx : x.rst = true := by rwa [hp] at hr
      rw [h x (by rw [hp]; exact List.mem_cons_self)] at hx
      cases hx
  rw [State.issue_of_idle hst] at hend ⊢
  have hrun := State.runBusy_induct_of
    (P := fun u => (∃ rs ws, RanOver R s w u rs ws) ∨ (u.st = .idle ∧ u.done = false ∧ ¬ noReset s.pending))
    (Q := fun x => x.rst = true → ¬ noReset s.pending)
    (fun u x busy hx h => by
      obtain ⟨rs, ws, hran⟩ := h.resolve_right fun h => busy h.1
      cases hr : x.rst with
      | true =>
        obtain ⟨hidle, hdone⟩ := hreset u hr
        exact .inr ⟨hidle, hdone, hx hr⟩
      | false => exact .inl ⟨_, _, hran.cycle henv hc busy hr⟩)
    (s.cycle { s.currentInputs with host := hw 0x000 w }) s.pending.tail
    (fun x hx hr h => by rw [h x (List.mem_of_mem_tail hx)] at hr; cases hr)
    (by
      cases hr : s.currentInputs.rst with
      | true =>
        obtain ⟨hidle, hdone⟩ := hreset s (x := { s.currentInputs with host := hw 0x000 w }) hr
        exact .inr ⟨hidle, hdone, hnow hr⟩
      | false => exact .inl ⟨_, _, RanOver.start hst h0 henv (x := { s.currentInputs with host := hw 0x000 w }) hr rfl⟩)
  rcases hrun with ⟨rs, ws, hran⟩ | ⟨-, hdone, hnot⟩
  · exact ⟨_, _, rs, ws, rfl, hran⟩
  · rcases hend with h | h
    · exact absurd h hnot
    · rw [State.withPending_done, hdone] at h; cases h

end

section
variable {R : State → List WireCycle → Prop} {s u : State} {w : Word} {rs : List CycleRecord} {ws : List WireCycle}

/-- What a device sees of a command from the cycle of its acceptance on. -/
theorem RanOver.wireBetween_eq (h : RanOver R s w u rs ws) (xs : List CycleIn) :
    wireBetween s (u.withPending xs) = .high :: ws := by
  rw [wireBetween, elapsed_eq (t := u.withPending xs) h.ran.log, h.wire]

theorem RanOver.exchangesBetween_eq (h : RanOver R s w u rs ws) (xs : List CycleIn) :
    exchangesBetween s (u.withPending xs) = exchangesOnWire ws := by
  rw [exchangesBetween, elapsed_eq (t := u.withPending xs) h.ran.log, h.exchanges]

theorem RanOver.repliesBetween_eq (h : RanOver R s w u rs ws) (xs : List CycleIn) :
    repliesBetween s (u.withPending xs) = repliesOnWire ws := by
  rw [repliesBetween, h.exchangesBetween_eq, repliesOnWire]

/-- R35: DONE says whether the command has ended. -/
theorem RanOver.done_iff (h : RanOver R s w u rs ws) : u.done = true ↔ u.st = .idle :=
  (h.ran.history (.inr h.noReset)).done_iff

end

end Sys2Proof.Machine
end

/-! SUPPORT. READ over any cycles: what it leaves unchanged, and that it follows its pseudocode (obligations O45, O48 and O51). -/

section
namespace Sys2Proof.Machine

/-! ### Bytes stored one after another -/

theorem Memory.store_append (m : Memory) (base : Nat) (as bs : List Byte) :
    m.store base (as ++ bs) = (m.store base as).store (base + as.length) bs := by
  induction as generalizing m base with
  | nil => rfl
  | cons a as ih => rw [List.cons_append, Memory.store, Memory.store, ih, List.length_cons, Nat.add_right_comm, Nat.add_assoc]

theorem Memory.store_concat (m : Memory) (bs : List Byte) (b : Byte) :
    m.store 0 (bs ++ [b]) = (m.store 0 bs).write bs.length b := by
  rw [Memory.store_append, Nat.zero_add]; rfl

/-- R127: the copy of the first bytes of a buffer stores them one after another. -/
theorem Memory.copyFrom_eq_store (src dst : Memory) (n : Nat) :
    src.copyFrom n dst = dst.store 0 ((List.range n).map src.read) := by
  induction n with
  | zero => rfl
  | succ n ih =>
    rw [Memory.copyFrom, ih, List.range_succ, List.map_append, List.map_singleton, Memory.store_concat, List.length_map,
      List.length_range]

/-- The first bytes of a buffer in which some bytes have been stored are those bytes. -/
theorem Memory.map_read_store {m : Memory} (h : m.wf) (bs : List Byte) :
    (List.range bs.length).map (m.store 0 bs).read = bs :=
  map_read_eq fun i hi => by simp [Memory.read_store h, List.getElem?_eq_getElem hi]

/-- A store of some bytes leaves those above them alone. -/
theorem Memory.read_store_of_le {m : Memory} (h : m.wf) {bs : List Byte} {i : Nat} (hi : bs.length ≤ i) :
    (m.store 0 bs).read i = m.read i := by
  simp [Memory.read_store h, List.getElem?_eq_none hi]

/-! ### The pseudocode's frame -/

/-- No exchange of some answers failed. -/
def Unfailing (rs : List Reply) : Prop := ∀ r ∈ rs, r.err = false

theorem Unfailing.concat {rs : List Reply} {r : Reply} (h : Unfailing rs) (hr : r.err = false) : Unfailing (rs ++ [r]) :=
  List.forall_mem_append.mpr ⟨h, List.forall_mem_singleton.mpr hr⟩

/-- A frame with all its answers. -/
theorem runFrame_of_unfailing {rs : List Reply} (h : Unfailing rs) (more : List Reply) :
    runFrame rs.length (rs ++ more) = .complete (rs.map Reply.rx) more := by
  induction rs with
  | nil => rfl
  | cons r rs ih =>
    obtain ⟨hr, hrs⟩ := List.forall_mem_cons.mp h
    simp only [List.length_cons, List.cons_append, runFrame, hr, Bool.false_eq_true, if_false, ih hrs, List.map_cons]

/-- A frame whose last answer so far is the first that failed. -/
theorem runFrame_of_fails {rs : List Reply} {r : Reply} {n : Nat} (h : Unfailing rs) (hn : rs.length < n) (hr : r.err = true) :
    runFrame n (rs ++ [r]) = .busFault := by
  induction rs generalizing n with
  | nil =>
    obtain ⟨m, rfl⟩ := Nat.exists_eq_succ_of_ne_zero hn.ne'
    exact if_pos hr
  | cons a rs ih =>
    obtain ⟨ha, hrs⟩ := List.forall_mem_cons.mp h
    obtain ⟨m, rfl⟩ := Nat.exists_eq_succ_of_ne_zero (Nat.ne_of_gt (Nat.zero_lt_of_lt hn))
    simp only [List.cons_append, runFrame, ha, Bool.false_eq_true, if_false, ih hrs (Nat.lt_of_succ_lt_succ hn)]

/-- The bytes of a complete frame are those of its answers. -/
theorem eq_append_of_runFrame {n : Nat} {rs rest : List Reply} {rx : List Byte} (h : runFrame n rs = .complete rx rest) :
    ∃ f, rs = f ++ rest ∧ f.map Reply.rx = rx ∧ f.length = n := by
  induction n generalizing rs rx with
  | zero =>
    cases h
    exact ⟨[], rfl, rfl, rfl⟩
  | succ n ih =>
    cases rs with
    | nil => cases h
    | cons r rs =>
      rw [runFrame] at h
      split at h
      · cases h
      · cases hrun : runFrame n rs with
        | complete rx' rest' =>
          rw [hrun] at h
          cases h
          obtain ⟨f, rfl, rfl, rfl⟩ := ih hrun
          exact ⟨r :: f, rfl, rfl, rfl⟩
        | busFault => rw [hrun] at h; cases h
        | unfinished => rw [hrun] at h; cases h

/-- R160, R161: what READ's pseudocode makes of BUF: the bytes received from slot 3 on, after Ok; nothing, after anything else. -/
theorem readCommand_buf {b : Build} {len : Nat} {rs : List Reply} {v v' : Visible} (h : readCommand b len rs v = some v') :
    (v'.result = .ok ∧ ∃ f rest, rs = f ++ rest ∧ f.length = 3 + len ∧ v'.buf = v.buf.store 0 ((f.map Reply.rx).drop 3)) ∨
      (v'.result ≠ .ok ∧ v'.buf = v.buf) := by
  unfold readCommand at h
  split at h
  · cases hrun : runFrame (3 + len) rs with
    | complete rx rest =>
      rw [hrun] at h
      cases h
      obtain ⟨f, rfl, rfl, hlen⟩ := eq_append_of_runFrame hrun
      exact .inl ⟨rfl, f, rest, rfl, hlen, rfl⟩
    | busFault =>
      rw [hrun] at h
      cases h
      exact .inr ⟨nofun, rfl⟩
    | unfinished => rw [hrun] at h; cases h
  · cases h
    exact .inr ⟨nofun, rfl⟩

/-! ### What each FSM state of a READ knows of the transport's answers -/

/-- R160: the pseudocode of a READ that was issued in `s` ends on the answers `rs` with what `u` shows and the result `res`. -/
def State.ReadEnds (s : State) (len : Nat) (u : State) (rs : List Reply) (res : ResultCode) : Prop :=
  readCommand s.build len rs s.visible = some ⟨u.buf, u.sr, u.polls, res⟩

/-- What holds in each FSM state of a READ of `len` bytes that was issued in `s`, after the answers `rs`. -/
def State.ReadPhase (s : State) (len : Nat) (u : State) (rs : List Reply) : SeqState → Prop
  | .check => rs = [] ∧ u.buf = s.buf ∧ u.stage = s.stage
  | .assert => lenLegal s.build len = true ∧ rs = [] ∧ u.buf = s.buf ∧ u.stage = s.stage
  | .xfer => lenLegal s.build len = true ∧ Unfailing rs ∧ rs.length = u.si.toNat ∧ u.buf = s.buf ∧
      u.stage = s.stage.store 0 ((rs.map Reply.rx).drop 3)
  | .gap => u.fk = .read ∧ s.ReadEnds len u rs u.res
  | .finish => s.ReadEnds len u rs u.res
  | .idle => s.ReadEnds len u rs u.result
  | .delay | .pgap => False

/-- A READ of `len` bytes that was issued in `s`, after the answers `rs`. -/
structure State.Reading (s : State) (len : Nat) (u : State) (rs : List Reply) : Prop where
  sr : u.sr = s.sr
  polls : u.polls = 0
  stage : ∃ bytes : List Byte, bytes.length ≤ len ∧ u.stage = s.stage.store 0 bytes
  phase : s.ReadPhase len u rs u.st

/-! ### The transitions -/

/-- Outside XFER the FSM leaves SR and the count of polls alone. -/
theorem State.fsmEdge_status_of_not_xfer {s : State} (h : s.st ≠ .xfer) (x : CycleIn) :
    (s.fsmEdge x).sr = s.sr ∧ (s.fsmEdge x).polls = s.polls := by
  have decision : s.pollDecision.sr = s.sr ∧ s.pollDecision.polls = s.polls := by
    rcases s.pollDecision_cases with ⟨-, e⟩ | ⟨-, -, e⟩ | ⟨-, -, -, e⟩ | ⟨-, -, -, e⟩ <;> rw [e] <;> exact ⟨rfl, rfl⟩
  unfold State.fsmEdge
  cases hst : s.st <;> dsimp only
  case xfer => exact absurd hst h
  case check => rcases s.checkEdge_cases with ⟨-, e⟩ | ⟨-, e⟩ <;> rw [e] <;> exact ⟨rfl, rfl⟩
  case gap =>
    unfold State.gapEdge
    split
    · exact ⟨rfl, rfl⟩
    · rcases s.afterGap_cases with ⟨-, e⟩ | ⟨-, -, -, e⟩ | ⟨-, -, -, -, e⟩ | ⟨-, -, -, -, e⟩ | ⟨-, -, -, e⟩ | ⟨-, -, e⟩ |
        ⟨-, -, -, -, e⟩ <;> rw [e]
      case inr.inr.inr.inr.inr.inl => exact decision
      all_goals exact ⟨rfl, rfl⟩
  case delay => unfold State.delayEdge; split <;> exact ⟨rfl, rfl⟩
  case pgap => unfold State.pgapEdge; split <;> exact ⟨rfl, rfl⟩
  case idle | assert | finish => exact ⟨rfl, rfl⟩

/-- R22, R92: the operands of a READ or WRITE that runs. -/
theorem State.Issued.operands {s u : State} {i : Instr} {addr : Addr} {len : Nat} (h : s.Issued (encode i) u)
    (hi : i = .read addr len ∨ i = .write addr len) (hlen : len ≤ 0xFF) : u.curAddr = addr ∧ u.curArg.toNat = len := by
  rw [State.curAddr, State.curArg, h.lastCmd]
  exact s.operands_accept hi hlen

/-- R93: the code of a READ that runs. -/
theorem State.Issued.curOpc_read {s u : State} {addr : Addr} {len : Nat} (h : s.Issued (encode (.read addr len)) u) :
    u.curOpc = opcRead := by
  rw [State.curOpc, h.lastCmd]
  exact (Laws.EncodedFields.read addr len).1

/-- R122: CHECK and the pseudocode ask the same of LEN. -/
theorem State.validCommand_eq_lenLegal {s : State} (h : s.curOpc = opcRead ∨ s.curOpc = opcWrite) :
    s.validCommand = lenLegal s.build s.curArg.toNat := by
  rw [Bool.eq_iff_iff, State.validCommand_of_transfer h, lenLegal, Bool.and_eq_true, decide_eq_true_eq, decide_eq_true_eq]

theorem lenLegal_iff {b : Build} {len : Nat} : lenLegal b len = true ↔ 1 ≤ len ∧ len ≤ b.bufBytes := by
  rw [lenLegal, Bool.and_eq_true, decide_eq_true_eq, decide_eq_true_eq]

/-- R130: the one frame of a READ is followed by FINISH, whether it has failed or not. -/
theorem State.afterGap_of_read {s : State} (hk : s.fk = .read) : s.afterGap = s.toFinish := by
  simp [State.afterGap, hk]

/-- R130: a frame of a READ is F_READ. -/
theorem frameOf_opcRead {fk : FrameKind} (h : frameOf opcRead fk) : fk = .read := by
  simpa [frameOf, opcRead, opcWrite, opcWren, opcWrdi, opcRdsr, opcWrsr] using h

section
variable {s u : State} {addr : Addr} {len : Nat} {rs : List Reply}

/-- R122, R124, R129, R135: the transitions of a READ outside XFER. -/
theorem State.ReadPhase.fsmEdge (h : s.Reading len u rs) (hi : s.Issued (encode (.read addr len)) u) (hlen : len ≤ 0xFF)
    (busy : u.st ≠ .idle) (hx : u.st ≠ .xfer) (x : CycleIn) : s.ReadPhase len (u.fsmEdge x) rs (u.fsmEdge x).st := by
  obtain ⟨hsr, hpolls, -, hp⟩ := h
  unfold State.fsmEdge
  cases hst : u.st <;> rw [hst] at hp <;> dsimp only
  case idle => exact absurd hst busy
  case xfer => exact absurd hst hx
  case delay | pgap => exact hp.elim
  case check =>
    obtain ⟨rfl, hbuf, hstage⟩ := hp
    have hlegal := State.validCommand_eq_lenLegal (.inl hi.curOpc_read)
    rw [(hi.operands (.inl rfl) hlen).2, hi.build] at hlegal
    rcases u.checkEdge_cases with ⟨hv, e⟩ | ⟨hv, e⟩ <;> rw [e] <;> rw [hlegal] at hv
    · exact ⟨hv, rfl, hbuf, hstage⟩
    · change readCommand s.build len [] s.visible = some ⟨u.buf, u.sr, u.polls, .invalidArgument⟩
      rw [readCommand, hv, hbuf, hsr, hpolls]; rfl
  case assert =>
    obtain ⟨hlegal, rfl, hbuf, hstage⟩ := hp
    exact ⟨hlegal, nofun, rfl, hbuf, hstage⟩
  case gap =>
    unfold State.gapEdge
    split
    · rw [State.countDown_st, hst]; exact hp
    · rw [State.afterGap_of_read hp.1]; exact hp.2
  case finish => exact hp

/-- R98: the byte of a slot goes to STAGE behind those before it. -/
theorem State.stage_capture_read {rx : Byte} (hlen : u.curArg.toNat ≤ u.build.bufBytes)
    (hslot : u.si.toNat < 3 + u.curArg.toNat) (hrs : rs.length = u.si.toNat)
    (hstage : u.stage = s.stage.store 0 ((rs.map Reply.rx).drop 3)) (err : Bool) :
    (u.capture .read u.si.toNat rx).stage = s.stage.store 0 (((rs ++ [(⟨rx, err⟩ : Reply)]).map Reply.rx).drop 3) := by
  rw [List.map_append, List.map_singleton]
  by_cases h3 : 3 ≤ u.si.toNat
  · have hbelow : u.si.toNat - 3 < u.build.bufBytes := by omega
    rw [State.capture_read rx ⟨h3, hslot⟩, State.setStage_stage, Memory.writeBelow, if_pos hbelow, hstage,
      List.drop_append_of_le_length (by rw [List.length_map]; omega), Memory.store_concat, List.length_drop, List.length_map, hrs]
  · rw [State.capture, if_neg fun h => h3 h.1, hstage, List.drop_eq_nil_of_le (by rw [List.length_map]; omega),
      List.drop_eq_nil_of_le (by rw [List.length_append, List.length_map, List.length_singleton]; omega)]

/-- R160: a READ whose answers are all there has ended with Ok. -/
theorem readCommand_of_whole {v : Visible} (hlegal : lenLegal s.build len = true) (hrs : Unfailing rs)
    (hn : rs.length = 3 + len) :
    readCommand s.build len rs v = some { v with polls := 0, result := .ok, buf := v.buf.store 0 ((rs.map Reply.rx).drop 3) } := by
  have hrun := runFrame_of_unfailing hrs []
  rw [List.append_nil, hn] at hrun
  rw [readCommand, hlegal, if_pos rfl, hrun]

/-- R161: a READ one of whose answers failed has ended with BusFault. -/
theorem readCommand_of_fails {v : Visible} {r : Reply} (hlegal : lenLegal s.build len = true) (hrs : Unfailing rs)
    (hn : rs.length < 3 + len) (hr : r.err = true) :
    readCommand s.build len (rs ++ [r]) v = some { v with polls := 0, result := .busFault } := by
  rw [readCommand, hlegal, if_pos rfl, runFrame_of_fails hrs hn hr]

/-- R125 to R128: XFER, in which an exchange completes. -/
theorem State.Reading.xferEdge_of_done (h : s.Reading len u rs) (hwf : s.stage.wf) (hst : u.st = .xfer) (hk : u.fk = .read)
    (harg : u.curArg.toNat = len) (hbuild : u.build = s.build) (hres : u.res = .ok) (hslot : u.si.toNat < 3 + len) {x : CycleIn}
    (hx : x.xferDone = true) : s.Reading len (u.xferEdge x) (rs ++ [(⟨x.xferRx, u.xferFails x⟩ : Reply)]) := by
  obtain ⟨hsr, hpolls, hbytes, hp⟩ := h
  rw [hst] at hp
  obtain ⟨hlegal, hrs, hcount, hbuf, hstage⟩ := hp
  obtain ⟨h1, hb⟩ := lenLegal_iff.mp hlegal
  have hflen : u.flen u.fk = 3 + len := by rw [hk, State.flen, harg]
  have hcap := State.stage_capture_read (rx := x.xferRx) (by rw [harg, hbuild]; exact hb) (harg.symm ▸ hslot) hcount hstage
    (u.xferFails x)
  have hmem : (((rs ++ [(⟨x.xferRx, u.xferFails x⟩ : Reply)]).map Reply.rx).drop 3).length = u.si.toNat + 1 - 3 := by simp [hcount]
  have heq := u.capture_read_eq_staged u.si.toNat x.xferRx
  rcases u.xferEdge_cases x with ⟨hnot, -⟩ | ⟨-, hfails, e⟩ | ⟨-, hfails, hnext, e⟩ | ⟨-, hfails, hlast, e⟩
  · rw [hx] at hnot; cases hnot
  · rw [e, hfails]
    refine ⟨hsr, hpolls, hbytes, hk, ?_⟩
    change readCommand s.build len _ s.visible = some ⟨u.buf, u.sr, u.polls, .busFault⟩
    rw [readCommand_of_fails hlegal hrs (hcount ▸ hslot) rfl, hbuf, hsr, hpolls]
    rfl
  · rw [e, hk, heq]
    refine ⟨hsr, hpolls, ⟨_, by rw [hmem]; omega, hcap⟩, ?_⟩
    change s.ReadPhase len _ _ u.st
    rw [hst]
    refine ⟨hlegal, hrs.concat hfails, ?_, hbuf, hcap⟩
    rw [List.length_append, hcount]
    exact (State.toNat_si_succ (by omega)).symm
  · have hwhole : u.si.toNat + 1 = 3 + len := by omega
    have hcopy : (u.capture .read u.si.toNat x.xferRx).stage.copyFrom (min u.curArg.toNat u.build.bufBytes) u.buf =
        s.buf.store 0 (((rs ++ [(⟨x.xferRx, u.xferFails x⟩ : Reply)]).map Reply.rx).drop 3) := by
      have hmin : min u.curArg.toNat u.build.bufBytes =
          (((rs ++ [(⟨x.xferRx, u.xferFails x⟩ : Reply)]).map Reply.rx).drop 3).length := by
        rw [hmem, harg, hbuild]; omega
      rw [Memory.copyFrom_eq_store, hcap, hmin, Memory.map_read_store hwf, hbuf]
    rw [e, hk, heq]
    refine ⟨hsr, hpolls, ⟨_, by rw [hmem]; omega, hcap⟩, hk, ?_⟩
    change readCommand s.build len _ s.visible =
      some ⟨(u.capture .read u.si.toNat x.xferRx).stage.copyFrom (min u.curArg.toNat u.build.bufBytes) u.buf, u.sr, u.polls, u.res⟩
    rw [readCommand_of_whole hlegal (hrs.concat hfails) (by rw [List.length_append, hcount]; exact hwhole), hcopy, hsr, hpolls, hres]
    rfl

/-- R120: one cycle of a READ. -/
theorem State.Reading.fsmEdge {ws : List WireCycle} {tr : Traffic} (h : s.Reading len u (repliesOnWire ws)) (hwf : s.stage.wf)
    (hlen : len ≤ 0xFF) (hi : s.Issued (encode (.read addr len)) u) (hh : u.History tr u.st) (busy : u.st ≠ .idle)
    (x : CycleIn) : s.Reading len (u.fsmEdge x) (repliesOnWire (ws ++ [u.wire x])) := by
  by_cases hst : u.st = .xfer
  · rw [hst] at hh
    obtain ⟨-, ⟨-, hres⟩, hsend, hslot, -⟩ := hh
    have hk : u.fk = .read := frameOf_opcRead (hi.curOpc_read ▸ hsend.kind)
    have harg := (hi.operands (.inl rfl) hlen).2
    rw [hk, State.flen, harg] at hslot
    cases hx : x.xferDone with
    | false =>
      rw [repliesOnWire_concat_of_none (by rw [State.wire_xfer_waiting hst hx]; rfl), State.fsmEdge_xfer_waiting hst hx]
      exact h
    | true =>
      have he : u.fsmEdge x = u.xferEdge x := by simp only [State.fsmEdge, hst]
      have hwire := State.wire_xfer_done hst (by rw [hk, State.flen, harg]; exact hslot) hx
      rw [he, repliesOnWire_concat_of_some (by rw [hwire]; rfl)]
      exact h.xferEdge_of_done hwf hst hk harg hi.build hres hslot hx
  · obtain ⟨hsr, hpolls⟩ := State.fsmEdge_status_of_not_xfer hst x
    obtain ⟨-, hstage⟩ := State.fsmEdge_buffers_of_not_xfer hst x
    rw [repliesOnWire_concat_of_none (State.exchange?_wire_of_not_xfer hst x)]
    exact ⟨hsr.trans h.sr, hpolls.trans h.polls, hstage ▸ h.stage, State.ReadPhase.fsmEdge h hi hlen busy hst x⟩

/-- DROP and the log are no part of it. -/
theorem State.Reading.frame (h : s.Reading len u rs) (d : Bool) (l : List CycleRecord) :
    s.Reading len { u with drop := d, log := l } rs :=
  ⟨h.sr, h.polls, h.stage, h.phase⟩

end

/-! ### Whole READs -/

/-- A READ that is issued to an idle block, at the end of its run. -/
theorem State.issue_read {s : State} {addr : Addr} {len : Nat} (hst : s.st = .idle) (hwf : s.stage.wf) (hlen : len ≤ 0xFF)
    (hend : noReset s.pending) :
    ∃ u xs rs ws, s.issue (encode (.read addr len)) = u.withPending xs ∧
      RanOver (fun u ws => s.Reading len u (repliesOnWire ws)) s (encode (.read addr len)) u rs ws :=
  State.issue_over hst ⟨rfl, rfl, ⟨[], Nat.zero_le len, rfl⟩, rfl, rfl, rfl⟩ (fun _ _ d l h => h.frame d l)
    (fun _ _ x hi hh busy _ h => h.fsmEdge hwf hlen hi hh busy x) (.inl hend)

/-- Settles O45: every FSM state of a READ knows that BUF and STAGE have changed below LEN only. -/
theorem readChangesOnlyItsBytes : Obligations.ReadChangesOnlyItsBytes := by
  intro s t addr len hst hbwf hswf hlen hnr hexec
  obtain ⟨u, xs, rs, ws, hrun, hran⟩ := State.issue_read (addr := addr) hst hswf hlen hnr
  rw [exec_eq_issue, hrun] at hexec
  cases hexec
  obtain ⟨hcmd, hpolicy, hwdelay, hlimit, hgap, hbuild⟩ := hran.issued
  obtain ⟨hsr, hpolls, ⟨bytes, hbytes, hstage⟩, hphase⟩ := hran.holds
  have hends {res : ResultCode} (h : s.ReadEnds len u (repliesOnWire ws) res) (i : Nat) (hi : len ≤ i) :
      u.buf.read i = s.buf.read i := by
    rcases readCommand_buf h with ⟨-, f, rest, -, hf, hbuf⟩ | ⟨-, hbuf⟩
    · have hshort : ((f.map Reply.rx).drop 3).length ≤ i := by rw [List.length_drop, List.length_map, hf]; omega
      exact (congrArg (Memory.read · i) hbuf).trans (Memory.read_store_of_le hbwf hshort)
    · exact congrArg (Memory.read · i) hbuf
  have hbuf : (∀ i, len ≤ i → u.buf.read i = s.buf.read i) ∧
      (u.st ≠ .idle → u.st ≠ .gap → u.st ≠ .finish → u.buf = s.buf) := by
    cases hu : u.st <;> rw [hu] at hphase
    case check =>
      obtain ⟨-, h, -⟩ := hphase
      exact ⟨fun i _ => by rw [h], fun _ _ _ => h⟩
    case assert =>
      obtain ⟨-, -, h, -⟩ := hphase
      exact ⟨fun i _ => by rw [h], fun _ _ _ => h⟩
    case xfer =>
      obtain ⟨-, -, -, h, -⟩ := hphase
      exact ⟨fun i _ => by rw [h], fun _ _ _ => h⟩
    case gap => exact ⟨hends hphase.2, fun _ h => absurd rfl h⟩
    case finish => exact ⟨hends hphase, fun _ _ h => absurd rfl h⟩
    case idle => exact ⟨hends hphase, fun h => absurd rfl h⟩
    case delay | pgap => exact hphase.elim
  refine ⟨hpolicy, hwdelay, hlimit, hgap, hbuild, hsr, hpolls, hcmd, fun i hi => ⟨hbuf.1 i hi, ?_⟩, hbuf.2⟩
  change u.stage.read i = _
  rw [hstage, Memory.read_store_of_le hswf (hbytes.trans hi)]

/-- Settles O48: what the idle state at the end of a READ knows of the transport's answers. -/
theorem readFollowsItsPseudocode : Obligations.ReadFollowsItsPseudocode := by
  intro s t addr len hst hwf hlen hnr hexec hidle
  obtain ⟨u, xs, rs, ws, hrun, hran⟩ := State.issue_read (addr := addr) hst hwf hlen hnr
  rw [exec_eq_issue, hrun] at hexec
  cases hexec
  have hu : u.st = .idle := hidle
  have hends := hran.holds.phase
  rw [hu] at hends
  rw [hran.repliesBetween_eq]
  exact ⟨hends, hran.done_iff.mpr hu⟩

/-- Settles O51, by what the pseudocode of READ makes of BUF. -/
theorem readIsAllOrNone : Obligations.ReadIsAllOrNone := by
  intro s t addr len hst hswf hbwf hlen hnr hexec hdone
  have hidle : t.st = .idle := by
    obtain ⟨u, xs, rs, ws, hrun, hran⟩ := State.issue_read (addr := addr) hst hswf hlen hnr
    rw [exec_eq_issue, hrun] at hexec
    cases hexec
    exact hran.done_iff.mp hdone
  obtain ⟨hcommand, -⟩ := readFollowsItsPseudocode s t addr len hst hswf hlen hnr hexec hidle
  rcases readCommand_buf hcommand with ⟨hok, f, rest, hreplies, hf, hbuf⟩ | ⟨hnot, hbuf⟩
  · refine ⟨fun h => ?_, fun _ i hi => ?_⟩
    · rw [show t.result = .ok from hok] at h; cases h
    · have hslot : 3 + i < f.length := by omega
      have hrx : ((exchangesBetween s t)[3 + i]?).map Exchange.rx = ((repliesBetween s t)[3 + i]?).map Reply.rx := by
        rw [repliesBetween, List.getElem?_map, Option.map_map]; rfl
      have hread := congrArg (Memory.read · i) hbuf
      change t.buf.read i = (s.buf.store 0 _).read i at hread
      rw [hread, Memory.read_store hbwf, if_pos (Nat.zero_le i), Nat.sub_zero, List.getElem?_drop, List.getElem?_map, hrx, hreplies,
        List.getElem?_append_left hslot, List.getElem?_eq_getElem hslot]
      rfl
  · exact ⟨fun _ => hbuf, fun h => absurd h hnot⟩

end Sys2Proof.Machine
end

/-! SUPPORT. WRITE over any cycles: what it leaves unchanged, and that it follows its pseudocode (obligations O46 and O49). -/

section
namespace Sys2Proof.Machine

/-! ### The pseudocode's frames -/

section
variable {b : Build} {p : Policy} {limit : BitVec 16} {len : Nat} {v : Visible}

/-- R122: a WRITE with a LEN out of its range. -/
theorem writeCommand_of_invalid (h : lenLegal b len = false) (rs : List Reply) :
    writeCommand b p limit len rs v = some { v with polls := 0, result := .invalidArgument } := by
  rw [writeCommand, h]; rfl

/-- R162: the exchange of the write-enable frame fails. -/
theorem writeCommand_of_enable_fails (h : lenLegal b len = true) {r : Reply} (hr : r.err = true) :
    writeCommand b p limit len [r] v = some { v with polls := 0, result := .busFault } := by
  simp [writeCommand, h, runFrame, hr]

/-- R162: an exchange of the data frame fails. -/
theorem writeCommand_of_data_fails (h : lenLegal b len = true) {e r : Reply} {f : List Reply} (he : e.err = false)
    (hf : Unfailing f) (hn : f.length < 3 + len) (hr : r.err = true) :
    writeCommand b p limit len (e :: (f ++ [r])) v = some { v with polls := 0, result := .busFault } := by
  simp [writeCommand, h, runFrame, he, runFrame_of_fails hf hn hr]

/-- R163, R164: after both frames the policy decides. -/
def afterData (p : Policy) (limit : BitVec 16) (v : Visible) (rs : List Reply) : Option Visible :=
  match p with
  | .fixedDelay => some { v with polls := 0, result := .ok }
  | .pollStatus => pollUntilIdle limit.toNat rs { v with polls := 0 }

theorem writeCommand_of_whole (h : lenLegal b len = true) {e : Reply} {f : List Reply} (he : e.err = false)
    (hf : Unfailing f) (hn : f.length = 3 + len) (more : List Reply) :
    writeCommand b p limit len (e :: (f ++ more)) v = afterData p limit v more := by
  have hrun := runFrame_of_unfailing hf more
  rw [hn] at hrun
  cases p <;> simp only [writeCommand, h, if_true, runFrame, he, Bool.false_eq_true, if_false, hrun, afterData]

/-- R164: a poll with both its answers. -/
theorem pollUntilIdle_of_whole {left : Nat} {r r' : Reply} (hr : r.err = false) (hr' : r'.err = false) (more : List Reply) :
    pollUntilIdle (left + 1) (r :: r' :: more) v =
      if writeInProgress r'.rx then pollUntilIdle left more { v with sr := r'.rx, polls := v.polls + 1 }
      else some { v with sr := r'.rx, polls := v.polls + 1, result := .ok } := by
  simp [pollUntilIdle, runFrame, hr, hr']

/-- R164: an exchange of a poll fails. -/
theorem pollUntilIdle_of_fails {left : Nat} {r : Reply} {f : List Reply} (hf : Unfailing f) (hn : f.length < 2)
    (hr : r.err = true) : pollUntilIdle (left + 1) (f ++ [r]) v = some { v with result := .busFault } := by
  rw [pollUntilIdle, runFrame_of_fails hf hn hr]

end

/-! ### What each FSM state of a WRITE knows of the transport's answers -/

/-- R162: what the pseudocode of a WRITE of `len` bytes that was issued in `s` makes of some answers. -/
def State.writeResult (s : State) (len : Nat) (rs : List Reply) : Option Visible :=
  writeCommand s.build s.policy s.limit len rs s.visible

/-- What `s` showed, with the status byte and the count of polls of `u`. -/
def State.shown (s u : State) : Visible := { s.visible with sr := u.sr, polls := u.polls }

/-- R162 to R164: a frame of each kind is due in `u` after the answers `rs`, and what the pseudocode makes of further answers. -/
def State.WriteDue (s : State) (len : Nat) (u : State) (rs : List Reply) : FrameKind → Prop
  | .wren => u.sr = s.sr ∧ rs = []
  | .write => u.sr = s.sr ∧ ∃ e, rs = [e] ∧ e.err = false
  | .poll => u.polls < s.limit ∧
      ∀ more, s.writeResult len (rs ++ more) = pollUntilIdle (s.limit.toNat - u.polls.toNat) more (s.shown u)
  | .wrdi | .read | .rdsr | .wrsr => False

/-- R162 to R164: a frame of each kind is whole in `u` with the answers `rs`. -/
def State.WriteSent (s : State) (len : Nat) (u : State) (rs : List Reply) : FrameKind → Prop
  | .wren => s.WriteDue len u rs .write
  | .write => u.sr = s.sr ∧ ∀ more, s.writeResult len (rs ++ more) = afterData s.policy s.limit s.visible more
  | .poll => ∀ more, s.writeResult len (rs ++ more) =
      if writeInProgress u.sr then pollUntilIdle (s.limit.toNat - u.polls.toNat) more (s.shown u)
      else some { s.shown u with result := .ok }
  | .wrdi | .read | .rdsr | .wrsr => False

/-- The pseudocode ends on the answers `rs` with what `u` shows and the result `res`. -/
def State.WriteEnds (s : State) (len : Nat) (u : State) (rs : List Reply) (res : ResultCode) : Prop :=
  s.writeResult len rs = some { s.shown u with result := res }

/-- What holds in each FSM state of a WRITE of `len` bytes that was issued in `s`, after the answers `rs`. -/
def State.WritePhase (s : State) (len : Nat) (u : State) (rs : List Reply) : SeqState → Prop
  | .check => u.sr = s.sr ∧ rs = []
  | .assert => lenLegal s.build len = true ∧ s.WriteDue len u rs u.fk
  | .xfer => lenLegal s.build len = true ∧
      ∃ pre f, rs = pre ++ f ∧ s.WriteDue len u pre u.fk ∧ Unfailing f ∧ f.length = u.si.toNat
  | .gap => lenLegal s.build len = true ∧
      ((u.Faulted ∧ s.WriteEnds len u rs .busFault) ∨ (u.Unfailed ∧ s.WriteSent len u rs u.fk))
  | .delay => s.WriteEnds len u rs .ok
  | .pgap => lenLegal s.build len = true ∧ u.fk = .poll ∧ s.WriteDue len u rs .poll
  | .finish => s.WriteEnds len u rs u.res
  | .idle => s.WriteEnds len u rs u.result

/-- A WRITE of `len` bytes that was issued in `s`, after the answers `rs`. (With LIMIT at 0, which no run from reset reaches, the
block polls once and the pseudocode does not.) -/
structure State.Writing (s : State) (len : Nat) (u : State) (rs : List Reply) : Prop where
  buf : u.buf = s.buf
  stage : u.stage = s.stage
  fixed : s.policy = .fixedDelay → u.sr = s.sr ∧ u.polls = 0
  phase : s.limit ≠ 0 → s.WritePhase len u rs u.st

/-! ### The transitions -/

/-- R98, R127: a frame other than F_READ leaves both buffers alone. -/
theorem State.xferEdge_buffers_of_ne_read {s : State} (h : s.fk ≠ .read) (x : CycleIn) :
    (s.xferEdge x).buf = s.buf ∧ (s.xferEdge x).stage = s.stage := by
  have hcap : (s.capture s.fk s.si.toNat x.xferRx).buf = s.buf ∧ (s.capture s.fk s.si.toNat x.xferRx).stage = s.stage := by
    rcases s.capture_cases s.fk s.si.toNat x.xferRx with ⟨hk, -⟩ | ⟨-, -, e⟩ | e
    · exact absurd hk h
    · rw [e]; exact ⟨rfl, rfl⟩
    · rw [e]; exact ⟨rfl, rfl⟩
  rcases s.xferEdge_cases x with ⟨-, e⟩ | ⟨-, -, e⟩ | ⟨-, -, -, e⟩ | ⟨-, -, -, e⟩ <;> rw [e]
  · exact ⟨rfl, rfl⟩
  · exact ⟨rfl, rfl⟩
  · exact hcap
  · rcases State.frameEffect_cases (s.capture s.fk s.si.toNat x.xferRx) s.fk with ⟨hk, -⟩ | ⟨-, f⟩ | ⟨-, -, f⟩
    · exact absurd hk h
    · rw [f]; exact hcap
    · rw [f]; exact hcap

/-- R98, R127: the frames that send without keeping anything leave SR and the count of polls alone. -/
theorem State.xferEdge_status_of_discards {s : State} (h : s.fk.Discards) (x : CycleIn) :
    (s.xferEdge x).sr = s.sr ∧ (s.xferEdge x).polls = s.polls := by
  rcases s.xferEdge_cases x with ⟨-, e⟩ | ⟨-, -, e⟩ | ⟨-, -, -, e⟩ | ⟨-, -, -, e⟩ <;> rw [e]
  · exact ⟨rfl, rfl⟩
  · exact ⟨rfl, rfl⟩
  · rw [State.capture_of_discards h]; exact ⟨rfl, rfl⟩
  · rw [State.capture_of_discards h, State.frameEffect_of_discards h]; exact ⟨rfl, rfl⟩

/-- R93: the code of a WRITE that runs. -/
theorem State.Issued.curOpc_write {s u : State} {addr : Addr} {len : Nat} (h : s.Issued (encode (.write addr len)) u) :
    u.curOpc = opcWrite := by
  rw [State.curOpc, h.lastCmd]
  exact (Laws.EncodedFields.write addr len).1

/-- R130: the frames of a WRITE. -/
theorem frameOf_opcWrite {fk : FrameKind} (h : frameOf opcWrite fk) : fk = .wren ∨ fk = .write ∨ fk = .poll := by
  simpa [frameOf, opcRead, opcWrite, opcWren, opcWrdi, opcRdsr, opcWrsr] using h

section
variable {s u : State} {addr : Addr} {len : Nat} {rs : List Reply}

/-- What is due depends on SR and on the count of polls alone. -/
theorem State.WriteDue.congr {u' : State} {fk : FrameKind} (h : s.WriteDue len u rs fk) (hsr : u'.sr = u.sr)
    (hpolls : u'.polls = u.polls) : s.WriteDue len u' rs fk := by
  cases fk with
  | wren | write | poll => simpa only [State.WriteDue, State.shown, hsr, hpolls] using h
  | wrdi | read | rdsr | wrsr => exact h.elim

/-- R128: an exchange of a frame that was due fails. -/
theorem State.WriteDue.ends_of_fails {fk : FrameKind} {f : List Reply} {r : Reply} (h : s.WriteDue len u rs fk)
    (hlegal : lenLegal s.build len = true) (hpolls : fk ≠ .poll → u.polls = 0) (harg : u.curArg.toNat = len) (hf : Unfailing f)
    (hn : f.length < u.flen fk) (hr : r.err = true) : s.WriteEnds len u (rs ++ f ++ [r]) .busFault := by
  cases fk with
  | wren =>
    obtain ⟨hsr, rfl⟩ := h
    obtain rfl : f = [] := List.eq_nil_of_length_eq_zero (Nat.lt_one_iff.mp hn)
    rw [State.WriteEnds, State.shown, hsr, hpolls nofun]
    exact writeCommand_of_enable_fails hlegal hr
  | write =>
    obtain ⟨hsr, e, rfl, he⟩ := h
    rw [State.WriteEnds, State.shown, hsr, hpolls nofun]
    exact writeCommand_of_data_fails hlegal he hf (harg ▸ hn) hr
  | poll =>
    obtain ⟨hlt, hmore⟩ := h
    obtain ⟨left, hleft⟩ : ∃ left, s.limit.toNat - u.polls.toNat = left + 1 :=
      Nat.exists_eq_succ_of_ne_zero (Nat.sub_ne_zero_of_lt hlt)
    rw [State.WriteEnds, List.append_assoc, hmore, hleft, pollUntilIdle_of_fails hf hn hr]
  | wrdi | read | rdsr | wrsr => exact h.elim

/-- R127: a frame that was due is whole. -/
theorem State.WriteDue.sent_of_last {f : List Reply} {b : Byte} (h : s.WriteDue len u rs u.fk)
    (hlegal : lenLegal s.build len = true) (harg : u.curArg.toNat = len) (hf : Unfailing f) (hsi : f.length = u.si.toNat)
    (hn : f.length + 1 = u.flen u.fk) :
    s.WriteSent len (((u.capture u.fk u.si.toNat b).frameEffect u.fk).closeFrame) (rs ++ (f ++ [(⟨b, false⟩ : Reply)])) u.fk := by
  have hwhole : Unfailing (f ++ [(⟨b, false⟩ : Reply)]) := hf.concat rfl
  have hlen : (f ++ [(⟨b, false⟩ : Reply)]).length = f.length + 1 := by rw [List.length_append]; rfl
  cases hk : u.fk with
  | wren =>
    rw [hk] at h hn
    obtain ⟨hsr, rfl⟩ := h
    obtain rfl : f = [] := List.eq_nil_of_length_eq_zero (Nat.succ.inj hn)
    exact ⟨hsr, _, rfl, rfl⟩
  | write =>
    rw [hk] at h hn
    obtain ⟨hsr, e, rfl, he⟩ := h
    refine ⟨hsr, fun more => ?_⟩
    rw [List.append_assoc]
    exact writeCommand_of_whole hlegal he hwhole (hlen.trans (hn.trans (congrArg (3 + ·) harg))) more
  | poll =>
    rw [hk] at h hn
    obtain ⟨hlt, hmore⟩ := h
    have hone : u.si.toNat = 1 := by rw [← hsi]; exact Nat.succ.inj hn
    obtain ⟨r, rfl⟩ := List.length_eq_one_iff.mp (hsi.trans hone)
    have hcap : u.capture .poll u.si.toNat b = u.setSr b := by rw [State.capture, if_pos hone]
    have hcount : (u.polls + 1).toNat = u.polls.toNat + 1 := by
      have := s.limit.isLt
      bv_omega
    have hleft : s.limit.toNat - u.polls.toNat = s.limit.toNat - (u.polls + 1).toNat + 1 := by
      have : u.polls.toNat < s.limit.toNat := hlt
      omega
    intro more
    rw [hcap, List.append_assoc, hmore, hleft]
    exact pollUntilIdle_of_whole (hf r List.mem_cons_self) rfl more
  | wrdi | read | rdsr | wrsr => rw [hk] at h; exact h.elim

/-- R125 to R128: XFER, in which an exchange completes. -/
theorem State.WritePhase.xferEdge_of_done {tr : Traffic} (h : s.WritePhase len u rs .xfer) (hh : u.History tr .xfer)
    (hst : u.st = .xfer) (harg : u.curArg.toNat = len) {x : CycleIn} (hx : x.xferDone = true) :
    s.WritePhase len (u.xferEdge x) (rs ++ [(⟨x.xferRx, u.xferFails x⟩ : Reply)]) (u.xferEdge x).st := by
  obtain ⟨hlegal, pre, f, rfl, hdue, hf, hsi⟩ := h
  obtain ⟨-, hu, hsend, hslot, -⟩ := hh
  rcases u.xferEdge_cases x with ⟨hnot, -⟩ | ⟨-, hfails, e⟩ | ⟨-, hfails, hnext, e⟩ | ⟨-, hfails, hlast, e⟩
  · rw [hx] at hnot; cases hnot
  · rw [e, hfails]
    exact ⟨hlegal, .inl ⟨⟨rfl, rfl⟩, hdue.ends_of_fails hlegal hsend.noPolls harg hf (hsi ▸ hslot) rfl⟩⟩
  · have hsucc : u.si.toNat + 1 < u.flen u.fk := by omega
    have htake : u.xferEdge x = u.staged (u.si + 1) (u.takeByte x.xferRx).stage := e.trans (State.takeByte_eq_staged hsucc _)
    rw [htake, hfails]
    change s.WritePhase len _ _ u.st
    rw [hst, List.append_assoc]
    refine ⟨hlegal, pre, f ++ [(⟨x.xferRx, false⟩ : Reply)], rfl, ?_, hf.concat rfl, ?_⟩
    · exact hdue.congr rfl rfl
    · rw [List.length_append, hsi]
      exact (State.toNat_si_succ hsucc).symm
  · rw [e, hfails, List.append_assoc]
    have hsent := hdue.sent_of_last (b := x.xferRx) hlegal harg hf hsi (by omega)
    rw [← u.capture_frame u.fk u.si.toNat x.xferRx, State.frameEffect_eq] at hsent ⊢
    exact ⟨hlegal, .inr ⟨hu, hsent⟩⟩

/-- R134: the poll decision. -/
theorem State.WritePhase.pollDecision (hk : u.fk = .poll) (h : s.WriteSent len u rs .poll) (hlegal : lenLegal s.build len = true)
    (hres : u.res = .ok) (hlimit : u.limit = s.limit) : s.WritePhase len u.pollDecision rs u.pollDecision.st := by
  have hdue (hwip : writeInProgress u.sr = true) (hlt : ¬ u.limit ≤ u.polls) : s.WriteDue len u rs .poll :=
    ⟨hlimit ▸ BitVec.not_le.mp hlt, fun more => (h more).trans (if_pos hwip)⟩
  rcases u.pollDecision_cases with ⟨hwip, e⟩ | ⟨hwip, hle, e⟩ | ⟨hwip, hlt, -, e⟩ | ⟨hwip, hlt, -, e⟩ <;> rw [e]
  · have hend := h []
    rw [List.append_nil, hwip, ← hres] at hend
    exact hend
  · have hend := h []
    have hnone : s.limit.toNat - u.polls.toNat = 0 := by
      rw [hlimit] at hle
      exact Nat.sub_eq_zero_of_le hle
    rw [List.append_nil, if_pos hwip, hnone] at hend
    exact hend
  · exact ⟨hlegal, hdue hwip hlt⟩
  · exact ⟨hlegal, hk, hdue hwip hlt⟩

/-- R130: leaving GAP after a whole frame. -/
theorem State.WritePhase.afterGap (h : s.WriteSent len u rs u.fk) (hlegal : lenLegal s.build len = true) (hu : u.Unfailed)
    (hpolls : u.fk ≠ .poll → u.polls = 0) (hi : s.Issued (encode (.write addr len)) u) (hlimit : s.limit ≠ 0) :
    s.WritePhase len u.afterGap rs u.afterGap.st := by
  obtain ⟨habort, hres⟩ := hu
  cases hk : u.fk <;> rw [hk] at h
  case wrdi | read | rdsr | wrsr => exact h.elim
  case wren =>
    rw [State.afterGap_of_enable habort hk hi.curOpc_write]
    exact ⟨hlegal, h⟩
  case write =>
    obtain ⟨hsr, hmore⟩ := h
    have hzero : u.polls = 0 := hpolls (by rw [hk]; decide)
    rw [State.afterGap_of_write habort hk, u.startWait_eq, hi.policy]
    cases hp : s.policy <;> rw [hp] at hmore
    case fixedDelay =>
      have hend := hmore []
      rw [List.append_nil] at hend
      have hends : s.WriteEnds len u rs .ok := by rw [State.WriteEnds, State.shown, hsr, hzero]; exact hend
      rw [if_pos rfl]
      split
      · change s.WriteEnds len u rs u.res
        rw [hres]; exact hends
      · exact hends
    case pollStatus =>
      rw [if_neg nofun]
      refine ⟨hlegal, ?_, fun more => ?_⟩
      · change u.polls < s.limit
        rw [hzero]; bv_omega
      · rw [hmore, State.shown, State.openFrame_sr, State.openFrame_polls, hsr, hzero]
        rfl
  case poll =>
    rw [State.afterGap_of_poll habort hk]
    exact State.WritePhase.pollDecision hk h hlegal hres hi.limit

/-- R122, R124, R129 to R135: the transitions of a WRITE outside XFER. -/
theorem State.WritePhase.fsmEdge {tr : Traffic} (h : s.WritePhase len u rs u.st) (hh : u.History tr u.st)
    (hi : s.Issued (encode (.write addr len)) u) (hlen : len ≤ 0xFF) (hlimit : s.limit ≠ 0) (busy : u.st ≠ .idle)
    (hx : u.st ≠ .xfer) (x : CycleIn) : s.WritePhase len (u.fsmEdge x) rs (u.fsmEdge x).st := by
  unfold State.fsmEdge
  cases hst : u.st <;> rw [hst] at h hh <;> dsimp only
  case idle => exact absurd hst busy
  case xfer => exact absurd hst hx
  case check =>
    obtain ⟨hsr, rfl⟩ := h
    obtain ⟨-, -, hpolls, -⟩ := hh
    have hlegal := State.validCommand_eq_lenLegal (.inr hi.curOpc_write)
    rw [(hi.operands (.inr rfl) hlen).2, hi.build] at hlegal
    rcases u.checkEdge_cases with ⟨hv, e⟩ | ⟨hv, e⟩ <;> rw [e] <;> rw [hlegal] at hv
    · rw [hi.curOpc_write]
      exact ⟨hv, hsr, rfl⟩
    · change s.writeResult len [] = some { s.shown u with result := .invalidArgument }
      rw [State.shown, hsr, hpolls]
      exact writeCommand_of_invalid hv []
  case assert =>
    obtain ⟨hlegal, hdue⟩ := h
    exact ⟨hlegal, rs, [], (List.append_nil rs).symm, hdue.congr rfl rfl, nofun, rfl⟩
  case gap =>
    obtain ⟨hlegal, hcase⟩ := h
    unfold State.gapEdge
    split
    · rw [State.countDown_st, hst]
      rcases hcase with hfault | ⟨hu, hsent⟩
      · exact ⟨hlegal, .inl hfault⟩
      · exact ⟨hlegal, .inr ⟨hu, hsent⟩⟩
    · rcases hcase with ⟨⟨habort, hres⟩, hends⟩ | ⟨hu, hsent⟩
      · have he : u.afterGap = u.toFinish := if_pos habort
        rw [he]
        change s.WriteEnds len u rs u.res
        rw [hres]; exact hends
      · obtain ⟨-, ⟨-, htr⟩ | ⟨⟨habort, -⟩, -⟩⟩ := hh
        · exact State.WritePhase.afterGap hsent hlegal hu htr.noPolls hi hlimit
        · rw [hu.1] at habort; cases habort
  case delay =>
    obtain ⟨-, ⟨-, hres⟩, -⟩ := hh
    unfold State.delayEdge
    split
    · rw [State.countDown_st, hst]; exact h
    · change s.WriteEnds len u rs u.res
      rw [hres]; exact h
  case pgap =>
    obtain ⟨hlegal, hk, hdue⟩ := h
    unfold State.pgapEdge
    split
    · rw [State.countDown_st, hst]; exact ⟨hlegal, hk, hdue⟩
    · exact ⟨hlegal, hk ▸ hdue⟩
  case finish => exact h

/-- R120: one cycle of a WRITE. -/
theorem State.Writing.fsmEdge {ws : List WireCycle} {tr : Traffic} (h : s.Writing len u (repliesOnWire ws)) (hlen : len ≤ 0xFF)
    (hi : s.Issued (encode (.write addr len)) u) (hh : u.History tr u.st) (busy : u.st ≠ .idle) (x : CycleIn) :
    s.Writing len (u.fsmEdge x) (repliesOnWire (ws ++ [u.wire x])) := by
  obtain ⟨hbuf, hstage, hfixed, hphase⟩ := h
  by_cases hst : u.st = .xfer
  · have he : u.fsmEdge x = u.xferEdge x := by simp only [State.fsmEdge, hst]
    rw [hst] at hh hphase
    have ⟨_, _, hsend, hslot, _⟩ := hh
    have hkind := frameOf_opcWrite (hi.curOpc_write ▸ hsend.kind)
    obtain ⟨hbuf', hstage'⟩ := State.xferEdge_buffers_of_ne_read
      (show u.fk ≠ .read by rcases hkind with hk | hk | hk <;> rw [hk] <;> decide) x
    refine ⟨by rw [he, hbuf', hbuf], by rw [he, hstage', hstage], fun hp => ?_, fun hlimit => ?_⟩
    · have hdiscards : u.fk.Discards := by
        rcases hkind with hk | hk | hk
        · rw [hk]; trivial
        · rw [hk]; trivial
        · have hpoll := hsend.policy hk
          rw [hi.policy, hp] at hpoll
          cases hpoll
      obtain ⟨hsr, hpolls⟩ := State.xferEdge_status_of_discards hdiscards x
      rw [he, hsr, hpolls]
      exact hfixed hp
    · cases hx : x.xferDone with
      | false =>
        rw [repliesOnWire_concat_of_none (by rw [State.wire_xfer_waiting hst hx]; rfl), State.fsmEdge_xfer_waiting hst hx, hst]
        exact hphase hlimit
      | true =>
        have hwire := State.wire_xfer_done hst hslot hx
        rw [he, repliesOnWire_concat_of_some (by rw [hwire]; rfl)]
        exact (hphase hlimit).xferEdge_of_done hh hst (hi.operands (.inr rfl) hlen).2 hx
  · obtain ⟨hsr, hpolls⟩ := State.fsmEdge_status_of_not_xfer hst x
    obtain ⟨hbuf', hstage'⟩ := State.fsmEdge_buffers_of_not_xfer hst x
    rw [repliesOnWire_concat_of_none (State.exchange?_wire_of_not_xfer hst x)]
    refine ⟨hbuf'.trans hbuf, hstage'.trans hstage, fun hp => by rw [hsr, hpolls]; exact hfixed hp, fun hlimit => ?_⟩
    exact (hphase hlimit).fsmEdge hh hi hlen hlimit busy hst x

/-- DROP and the log are no part of it. -/
theorem State.Writing.frame (h : s.Writing len u rs) (d : Bool) (l : List CycleRecord) :
    s.Writing len { u with drop := d, log := l } rs :=
  ⟨h.buf, h.stage, h.fixed, h.phase⟩

end

/-! ### Whole WRITEs -/

/-- A WRITE that is issued to an idle block, at the end of its run. -/
theorem State.issue_write {s : State} {addr : Addr} {len : Nat} (hst : s.st = .idle) (hlen : len ≤ 0xFF)
    (hend : noReset s.pending) :
    ∃ u xs rs ws, s.issue (encode (.write addr len)) = u.withPending xs ∧
      RanOver (fun u ws => s.Writing len u (repliesOnWire ws)) s (encode (.write addr len)) u rs ws :=
  State.issue_over hst ⟨rfl, rfl, fun _ => ⟨rfl, rfl⟩, fun _ => ⟨rfl, rfl⟩⟩ (fun _ _ d l h => h.frame d l)
    (fun _ _ x hi hh busy _ h => h.fsmEdge hlen hi hh busy x) (.inl hend)

/-- Settles O46: no transition of a WRITE changes a buffer, and only a poll changes SR and the count. -/
theorem writeLeavesTheBuffers : Obligations.WriteLeavesTheBuffers := by
  intro s t addr len hst hlen hnr hexec
  obtain ⟨u, xs, rs, ws, hrun, hran⟩ := State.issue_write (addr := addr) hst hlen hnr
  rw [exec_eq_issue, hrun] at hexec
  cases hexec
  obtain ⟨hcmd, hpolicy, hwdelay, hlimit, hgap, hbuild⟩ := hran.issued
  obtain ⟨hbuf, hstage, hfixed, -⟩ := hran.holds
  exact ⟨hpolicy, hwdelay, hlimit, hgap, hbuild, hbuf, hstage, hcmd, hfixed⟩

/-- Settles O49: what the idle state at the end of a WRITE knows of the transport's answers. -/
theorem writeFollowsItsPseudocode : Obligations.WriteFollowsItsPseudocode := by
  intro s t addr len hst hlimit hlen hnr hexec hidle
  obtain ⟨u, xs, rs, ws, hrun, hran⟩ := State.issue_write (addr := addr) hst hlen hnr
  rw [exec_eq_issue, hrun] at hexec
  cases hexec
  have hu : u.st = .idle := hidle
  obtain ⟨hbuf, -, -, hphase⟩ := hran.holds
  have hends := hphase hlimit
  rw [hu] at hends
  have hvisible : ({ s.shown u with result := u.result } : Visible) = (u.withPending xs).visible := by
    rw [State.visible, State.withPending_buf, hbuf]; rfl
  rw [hran.repliesBetween_eq, ← hvisible]
  exact ⟨hends, hran.done_iff.mpr hu⟩

end Sys2Proof.Machine
end

/-! SUPPORT. The EEPROM device along the cycles of the wire: what closing a window does, and stretches of harmless frames. -/

section
namespace Sys2Proof.Machine

/-! ### One cycle of the device -/

/-- R71: what the rising edge of chip-select does to a device: nothing, if no window is open, or what the device does with the
window. -/
def Device.Closes (p : DeviceParams) (d e : Device) : Prop :=
  (d.window = none ∧ e = d) ∨ ∃ w, d.window = some w ∧ Device.Acts p { d with window := none } w e

theorem Device.Closes.of_window_none {p : DeviceParams} {d e : Device} (h : Device.Closes p d e) (hw : d.window = none) : e = d := by
  rcases h with ⟨-, he⟩ | ⟨w, hw', -⟩
  · exact he
  · rw [hw] at hw'; cases hw'

theorem Device.Closes.acts {p : DeviceParams} {d e : Device} {w : Window} (h : Device.Closes p d e) (hw : d.window = some w) :
    Device.Acts p { d with window := none } w e := by
  rcases h with ⟨hnone, -⟩ | ⟨w', hw', hacts⟩
  · rw [hw] at hnone; cases hnone
  · rw [hw] at hw'; cases hw'; exact hacts

/-- A cycle with chip-select high: the window closes, if one is open, and the cycle's time passes. -/
theorem Device.Cycle.high_cases {p : DeviceParams} {d f : Device} (h : Device.Cycle p d .high f) :
    ∃ e, Device.Closes p d e ∧ Device.Passes p e f := by
  cases h with
  | high _ hw hp => exact ⟨d, .inl ⟨hw, rfl⟩, hp⟩
  | rises e _ w hw ha hp => exact ⟨e, .inr ⟨w, hw, ha⟩, hp⟩

/-- A cycle with chip-select low: the cycle's time passes, an exchange may bring a byte, and the window goes on. -/
theorem Device.Cycle.low_cases {p : DeviceParams} {d f : Device} {x : Option Exchange} {cut : Bool}
    (h : Device.Cycle p d (.low x cut) f) :
    ∃ e, Device.Passes p d e ∧ (∀ y, x = some y → e.mayBring p (d.busy || e.busy) y) ∧ f = e.extend (d.busy || e.busy) x cut := by
  cases h with
  | low e _ _ hp hx => exact ⟨e, hp, hx, rfl⟩

theorem Device.Run.nil_iff {p : DeviceParams} {d e : Device} : Device.Run p d [] e ↔ e = d := by
  constructor
  · intro h; cases h; rfl
  · rintro rfl; exact .nil e

theorem Device.Run.singleton_iff {p : DeviceParams} {d e : Device} {w : WireCycle} :
    Device.Run p d [w] e ↔ Device.Cycle p d w e := by
  refine ⟨fun h => ?_, fun h => .cons d e e w [] h (.nil e)⟩
  cases h with
  | cons _ _ _ _ _ hc hr => rwa [Device.Run.nil_iff.mp hr]

/-! ### What a device does with the frames of a WRITE -/

/-- R72: a whole WREN frame sets the latch. -/
theorem Device.Acts.of_wren {p : DeviceParams} {d e : Device} {w : Window} (h : Device.Acts p d w e) (hw : w.whole)
    (hb : w.busySeen = false) (hs : w.exchanges.sent = [opcWren]) : e = { d with latch := true } := by
  cases h with
  | wren => rfl
  | writeIgnored _ _ _ h' | writeStarts _ _ _ _ _ _ h' | writeOpen _ _ h' | read _ _ _ _ _ _ h' | readOpen _ _ h' | status _ _ _ h'
  | wrdi _ _ _ _ h' | wrsr _ _ _ _ _ h' =>
    rw [hs] at h'; simp [opcWren, opcWrite, opcRead, opcRdsr, opcWrdi, opcWrsr] at h'
  | busyOpen _ h' => rw [hb] at h'; cases h'
  | partialOpen _ h' => exact absurd hw h'
  | otherOpen _ h' => simp [hs, opcWren, opcWrite, opcRead, opcRdsr, opcWrdi, opcWrsr] at h'

/-- R73: a whole WRITE frame inside one page, with the latch set, starts the write of its data bytes. -/
theorem Device.Acts.of_write {p : DeviceParams} {d e : Device} {w : Window} {ah al : Byte} {data : List Byte}
    (h : Device.Acts p d w e) (hw : w.whole) (hb : w.busySeen = false) (hs : w.exchanges.sent = opcWrite :: ah :: al :: data)
    (hl : d.latch = true) (hd : 0 < data.length) (hr : p.inRange (wireAddr ah al) data.length) :
    ∃ latch, e = { d with latch := latch, writing := some 0, array := d.storeAt (wireAddr ah al) data } := by
  cases h with
  | writeStarts ah' al' data' l _ _ h' =>
    rw [hs] at h'
    cases h'
    exact ⟨l, rfl⟩
  | writeIgnored _ _ _ _ h' => rw [hl] at h'; cases h'
  | writeOpen _ rest h' _ _ hn =>
    rw [hs] at h'
    cases h'
    exact absurd hr (hn _ _ _ rfl hd)
  | wren _ _ h' | read _ _ _ _ _ _ h' | readOpen _ _ h' | status _ _ _ h' | wrdi _ _ _ _ h' | wrsr _ _ _ _ _ h' =>
    rw [hs] at h'; simp [opcWren, opcWrite, opcRead, opcRdsr, opcWrdi, opcWrsr] at h'
  | busyOpen _ h' => rw [hb] at h'; cases h'
  | partialOpen _ h' => exact absurd hw h'
  | otherOpen _ h' => simp [hs, opcWren, opcWrite, opcRead, opcRdsr, opcWrdi, opcWrsr] at h'

/-- R75, R78: a whole RDSR frame leaves all but the latch alone, in a write cycle too. -/
theorem Device.Acts.of_rdsr {p : DeviceParams} {d e : Device} {w : Window} {dummy : Byte} (h : Device.Acts p d w e)
    (hw : w.whole) (hs : w.exchanges.sent = [opcRdsr, dummy]) : ∃ latch, e = { d with latch := latch } := by
  cases h with
  | status _ l => exact ⟨l, rfl⟩
  | wren _ _ h' | writeIgnored _ _ _ h' | writeStarts _ _ _ _ _ _ h' | writeOpen _ _ h' | read _ _ _ _ _ _ h' | readOpen _ _ h'
  | wrdi _ _ _ _ h' | wrsr _ _ _ _ _ h' =>
    rw [hs] at h'; simp [opcWren, opcWrite, opcRead, opcRdsr, opcWrdi, opcWrsr] at h'
  | busyOpen _ _ h' => rw [hs] at h'; exact absurd rfl h'
  | partialOpen _ h' => exact absurd hw h'
  | otherOpen _ h' => simp [hs, opcWren, opcWrite, opcRead, opcRdsr, opcWrdi, opcWrsr] at h'

/-! ### Harmless frames -/

/-- The window of a device that has seen the frame `f` open so far, outside a write cycle and without a reset. -/
def quietWindow (f : Frame) : Window := ⟨f, false, false⟩

/-- R165: a cycle with chip-select high, after a harmless frame or none. -/
theorem Device.Cycle.high_of_harmless {p : DeviceParams} {d e : Device} {window : Option Frame} (h : Device.Cycle p d .high e)
    (hw : d.window = window.map quietWindow) (hb : d.busy = false) (hf : ∀ f ∈ window, f.harmless p) :
    e.window = none ∧ e.busy = false ∧ e.array = d.array := by
  cases window with
  | none =>
    obtain rfl := h.high_of_not_busy hw hb
    exact ⟨hw, hb, rfl⟩
  | some f =>
    obtain ⟨e', hcloses, hpasses⟩ := h.high_cases
    obtain ⟨harray, hwriting, hnone⟩ := (hcloses.acts hw).of_harmless (hf f rfl) rfl rfl
    have hb' : e'.busy = false := by rw [Device.busy, hwriting]; exact hb
    obtain rfl := hpasses.of_not_busy hb'
    exact ⟨hnone, hb', harray⟩

/-- R165: harmless frames leave the array of a device that is not in a write cycle as it is. -/
theorem Device.Run.of_harmless {p : DeviceParams} {d e : Device} {window : Option Frame} {ws : List WireCycle}
    (h : Device.Run p d (ws ++ [.high]) e) (hw : d.window = window.map quietWindow) (hb : d.busy = false)
    (hcut : ∀ x cut, .low x cut ∈ ws → cut = false) (hf : ∀ f ∈ framesOnWire window ws, f.harmless p) :
    e.window = none ∧ e.busy = false ∧ e.array = d.array := by
  induction ws generalizing d window with
  | nil => exact (Device.Run.singleton_iff.mp h).high_of_harmless hw hb fun f hfw => hf f (Option.mem_toList.mpr hfw)
  | cons w ws ih =>
    have hcut' : ∀ x cut, .low x cut ∈ ws → cut = false := fun x cut hx => hcut x cut (List.mem_cons_of_mem w hx)
    cases h with
    | cons _ g _ _ _ hc hr =>
      cases w with
      | high =>
        rw [framesOnWire] at hf
        obtain ⟨hgw, hgb, hga⟩ := hc.high_of_harmless hw hb fun f hfw =>
          hf f (List.mem_append_left _ (Option.mem_toList.mpr hfw))
        rw [← hga]
        exact ih (window := none) hr hgw hgb hcut' fun f hfw => hf f (List.mem_append_right _ hfw)
      | low x cut =>
        obtain rfl : cut = false := hcut x cut List.mem_cons_self
        obtain ⟨rfl, -⟩ := hc.low_of_not_busy hb
        refine ih (d := d.extend false x false) (window := some (window.getD [] ++ x.toList)) hr ?_ hb hcut' hf
        cases window <;> simp [Device.extend, Device.openWindow, hw, quietWindow]

/-! ### A command and a device -/

/-- A device that goes along with a command: what holds of the block and the device when the command is accepted, and is kept by
every cycle of both, holds where the run of the command ends. -/
theorem State.issue_with_device {Q : State → Device → Prop} {s : State} {w : Word} {p : DeviceParams} {d0 : Device}
    (hst : s.st = .idle) (h0 : Q (s.accept w) d0) (henv : ∀ u e d l, Q u e → Q { u with drop := d, log := l } e)
    (hc : ∀ u tr x d e, s.Issued w u → u.History tr u.st → u.st ≠ .idle → x.rst = false → Q u d → Device.Cycle p d (u.wire x) e →
      Q (u.fsmEdge x) e)
    (hend : noReset s.pending ∨ (s.issue w).done = true) :
    ∃ u xs rs ws, s.issue w = u.withPending xs ∧ RanOver (fun u ws => ∀ e, Device.Run p d0 ws e → Q u e) s w u rs ws := by
  refine State.issue_over hst (fun e he => ?_) (fun u ws d l h e he => henv u e d l (h e he)) (fun u ws x hi hh busy hr h e he => ?_)
    hend
  · rwa [Device.Run.nil_iff.mp he]
  · obtain ⟨d, hd, hde⟩ := Device.Run.append_iff.mp he
    exact hc u _ x d e hi hh busy hr (h d hd) (Device.Run.singleton_iff.mp hde)

end Sys2Proof.Machine
end

/-! SUPPORT. A WRITE and the device it writes to (obligation O55, first part): what the device holds in each FSM state, and that its
write cycle is over when the WRITE has ended with Ok. -/

section
namespace Sys2Proof.Machine

/-! ### The window of a frame -/

/-- R61, R91: the address that the two address bytes of a frame give. -/
theorem wireAddr_eq (a : Addr) : wireAddr (addrHigh a) (addrLow a) = a.toNat := by
  rw [wireAddr, append_eq_ofNat, addrHigh, addrLow]
  simp only [BitVec.toNat_ofNat, BitVec.extractLsb'_toNat, Nat.shiftRight_eq_div_pow]
  omega

/-- R71: the window holds the first `k` bytes of the block's frame, whose exchanges have not failed. -/
def State.Fills (u : State) (k : Nat) (w : Window) : Prop :=
  w.whole ∧ w.exchanges.sent = (List.range k).map (u.slotByte u.fk)

/-- A device's window after one more low cycle. -/
def Window.extend (w : Window) (busy : Bool) (x : Option Exchange) : Window :=
  ⟨w.exchanges ++ x.toList, w.busySeen || busy, w.cut⟩

theorem Device.extend_window {d : Device} {w : Window} (h : d.window = some w) (busy : Bool) (x : Option Exchange) :
    (d.extend busy x false).window = some (w.extend busy x) := by
  simp [Device.extend, Device.openWindow, h, Window.extend]

theorem State.Fills.wait {u : State} {k : Nat} {w : Window} (h : u.Fills k w) (busy : Bool) : u.Fills k (w.extend busy none) := by
  obtain ⟨⟨hcut, hf⟩, hs⟩ := h
  rw [State.Fills, Window.whole, Window.extend, Option.toList_none, List.append_nil]
  exact ⟨⟨hcut, hf⟩, hs⟩

theorem State.Fills.exchange {u : State} {k : Nat} {w : Window} {e : Exchange} (h : u.Fills k w) (htx : e.tx = u.slotByte u.fk k)
    (herr : e.err = false) (busy : Bool) : u.Fills (k + 1) (w.extend busy (some e)) := by
  obtain ⟨⟨hcut, hf⟩, hs⟩ := h
  refine ⟨⟨hcut, List.forall_mem_append.mpr ⟨hf, List.forall_mem_singleton.mpr herr⟩⟩, ?_⟩
  rw [List.range_succ, List.map_append, ← hs, List.map_singleton, ← htx]
  exact List.map_append

/-! ### What each FSM state of a WRITE knows of the device -/

/-- The array `old` with the first `n` bytes of BUF written from `addr` on (R73). -/
def State.written (s : State) (addr : Addr) (n : Nat) (old : Memory) : Memory :=
  old.store addr.toNat ((List.range n).map s.buf.read)

/-- R72, R73: a device up to the end of a frame of each kind of a WRITE that turns the array `old` into `new`. -/
def Device.Before (d : Device) (old new : Memory) : FrameKind → Prop
  | .wren => d.busy = false ∧ d.array = old
  | .write => d.busy = false ∧ d.array = old ∧ d.latch = true
  | .poll => d.array = new
  | .wrdi | .read | .rdsr | .wrsr => False

/-- R72, R73, R76: a device in GAP after a frame of each kind. A write in progress has then taken all cycles of GAP so far; after
a poll that reads bit 0 = 0 there is none (R75). -/
def State.DeviceAfter (u : State) (d : Device) (old new : Memory) : FrameKind → Prop
  | .wren => d.Before old new .write
  | .write => d.array = new ∧ ∀ k, d.writing = some k → u.build.csGap.toNat ≤ k + u.cnt.toNat
  | .poll => d.array = new ∧ (writeInProgress u.sr = false → d.busy = false)
  | .wrdi | .read | .rdsr | .wrsr => False

/-- R76: the write is over, and the array holds what was written. -/
def Device.Holds (d : Device) (m : Memory) : Prop := d.window = none ∧ d.busy = false ∧ d.array = m

/-- What holds of the device in each FSM state of a WRITE that turns the array `old` into `new`, unless an exchange has failed. In
GAP it is said of the device as it is when its window has closed. -/
def State.DevicePhase (p : DeviceParams) (old new : Memory) (u : State) (d : Device) : SeqState → Prop
  | .check => d.Holds old
  | .assert => d.window = none ∧ d.Before old new u.fk
  | .xfer => d.Before old new u.fk ∧
      ∃ w, d.window = some w ∧ u.Fills u.si.toNat w ∧ (u.fk ≠ .poll → w.busySeen = false)
  | .gap => u.abort = false → ∀ e, Device.Closes p d e → e.window = none ∧ u.DeviceAfter e old new u.fk
  | .delay => u.policy = .fixedDelay ∧ d.window = none ∧ d.array = new ∧
      ∀ k, d.writing = some k → u.build.csGap.toNat + u.wdelay.toNat ≤ k + u.cnt.toNat
  | .pgap => u.fk = .poll ∧ d.window = none ∧ d.array = new
  | .finish => u.res = .ok → d.Holds new
  | .idle => u.result = .ok → d.Holds new

/-! ### Time -/

theorem Device.Holds.passes {p : DeviceParams} {d e : Device} {m : Memory} (h : d.Holds m) (hp : Device.Passes p d e) : e.Holds m := by
  obtain ⟨hw, hb, ha⟩ := h
  obtain rfl := hp.of_not_busy hb
  exact ⟨hw, hb, ha⟩

theorem Device.Before.passes {p : DeviceParams} {d e : Device} {old new : Memory} {fk : FrameKind} (h : d.Before old new fk)
    (hp : Device.Passes p d e) : e.Before old new fk ∧ (fk ≠ .poll → (d.busy || e.busy) = false) := by
  obtain ⟨-, harray, -⟩ := hp.frame
  cases fk with
  | wren =>
    obtain ⟨hb, ha⟩ := h
    obtain rfl := hp.of_not_busy hb
    exact ⟨⟨hb, ha⟩, fun _ => by rw [hb]; rfl⟩
  | write =>
    obtain ⟨hb, ha, hl⟩ := h
    obtain rfl := hp.of_not_busy hb
    exact ⟨⟨hb, ha, hl⟩, fun _ => by rw [hb]; rfl⟩
  | poll => exact ⟨harray.trans h, fun hne => absurd rfl hne⟩
  | wrdi | read | rdsr | wrsr => exact h.elim

/-- The window is no part of it. -/
theorem Device.Before.extend {d : Device} {old new : Memory} {fk : FrameKind} (h : d.Before old new fk) (busy cut : Bool)
    (x : Option Exchange) : (d.extend busy x cut).Before old new fk := by
  cases fk <;> exact h

/-- R76: a write that is still in progress was so before, and has not taken the device's write time. -/
theorem Device.Passes.writing_eq_some {p : DeviceParams} {d e : Device} {k : Nat} (h : Device.Passes p d e)
    (hk : e.writing = some k) :
    ∃ j, d.writing = some j ∧ k = j + 1 ∧ ∀ m, p.writeTime = some m → k < m := by
  cases h with
  | still hnone => rw [hnone] at hk; cases hk
  | completes => cases hk
  | goesOn j hj ht =>
    obtain rfl : j + 1 = k := Option.some.inj hk
    exact ⟨j, hj, rfl, ht⟩

/-! ### XFER -/

section
variable {p : DeviceParams} {old : Memory} {s u : State} {addr : Addr} {n : Nat} {d e : Device} {x : CycleIn}

/-- R72, R73, R75: the window of a whole frame closes. -/
theorem Device.Before.closes {v : State} {w : Window} (h : d.Before old (s.written addr n old) u.fk) (hw : d.window = some w)
    (hfills : u.Fills (u.flen u.fk) w) (hseen : u.fk ≠ .poll → w.busySeen = false) (hbuf : u.buf = s.buf)
    (haddr : u.curAddr = addr) (harg : u.curArg.toNat = n) (hn : 1 ≤ n) (hrange : p.inRange addr.toNat n)
    (hcnt : v.build.csGap.toNat ≤ 0 + v.cnt.toNat) (hpoll : u.fk = .poll → writeInProgress v.sr = d.busy)
    (hc : Device.Closes p d e) : e.window = none ∧ v.DeviceAfter e old (s.written addr n old) u.fk := by
  obtain ⟨hwhole, hsent⟩ := hfills
  have hacts := hc.acts hw
  cases hk : u.fk <;> rw [hk] at h hseen hsent
  case wren =>
    obtain ⟨hb, ha⟩ := h
    obtain rfl := hacts.of_wren hwhole (hseen nofun) hsent
    exact ⟨rfl, hb, ha, rfl⟩
  case write =>
    obtain ⟨hb, ha, hl⟩ := h
    have hbytes : w.exchanges.sent = opcWrite :: addrHigh addr :: addrLow addr :: (List.range n).map s.buf.read := by
      rw [hsent, State.flen, harg, u.map_slotByte_write, haddr, hbuf]; rfl
    have hlen : ((List.range n).map s.buf.read).length = n := by simp
    obtain ⟨latch, rfl⟩ := hacts.of_write hwhole (hseen nofun) hbytes hl (by omega) (by rw [wireAddr_eq, hlen]; exact hrange)
    refine ⟨rfl, ?_, fun k hk => ?_⟩
    · change d.array.store _ _ = _
      rw [ha, wireAddr_eq]; rfl
    · obtain rfl : 0 = k := Option.some.inj hk
      exact hcnt
  case poll =>
    obtain ⟨latch, rfl⟩ := hacts.of_rdsr hwhole hsent
    exact ⟨rfl, h, fun hwip => (hpoll hk).symm.trans hwip⟩
  case wrdi | read | rdsr | wrsr => exact h.elim

/-- R125 to R128: XFER. -/
theorem State.DevicePhase.xfer {tr : Traffic} (h : u.DevicePhase p old (s.written addr n old) d .xfer) (hh : u.History tr .xfer)
    (hst : u.st = .xfer) (hr : x.rst = false) (hbuf : u.buf = s.buf)
    (haddr : u.curAddr = addr) (harg : u.curArg.toNat = n) (hn : 1 ≤ n) (hrange : p.inRange addr.toNat n)
    (hc : Device.Cycle p d (u.wire x) e) : (u.xferEdge x).DevicePhase p old (s.written addr n old) e (u.xferEdge x).st := by
  obtain ⟨hbefore, w, hw, hfills, hseen⟩ := h
  obtain ⟨-, -, -, hslot, -⟩ := hh
  cases hx : x.xferDone with
  | false =>
    have he : u.xferEdge x = u := by rw [State.xferEdge, if_pos hx]
    rw [State.wire_xfer_waiting hst hx, hr] at hc
    obtain ⟨d', hp, -, rfl⟩ := hc.low_cases
    obtain ⟨-, -, hwin⟩ := hp.frame
    obtain ⟨hbefore', hquiet⟩ := hbefore.passes hp
    rw [he, hst]
    refine ⟨hbefore'.extend _ _ _, _, Device.extend_window (hwin.trans hw) _ _, hfills.wait _, fun hk => ?_⟩
    rw [Window.extend, hseen hk, hquiet hk]; rfl
  | true =>
    rw [State.wire_xfer_done hst hslot hx, hr] at hc
    obtain ⟨d', hp, hbring, rfl⟩ := hc.low_cases
    obtain ⟨-, -, hwin⟩ := hp.frame
    obtain ⟨hbefore', hquiet⟩ := hbefore.passes hp
    have hwin' := hwin.trans hw
    have hseen' (b : Bool) (y : Option Exchange) (hb : u.fk ≠ .poll → b = false) (hk : u.fk ≠ .poll) :
        (w.extend b y).busySeen = false := by rw [Window.extend, hseen hk, hb hk]; rfl
    rcases u.xferEdge_cases x with ⟨hnot, -⟩ | ⟨-, hfails, he⟩ | ⟨-, hfails, hnext, he⟩ | ⟨-, hfails, hlast, he⟩
    · rw [hx] at hnot; cases hnot
    · rw [he]; exact nofun
    · have hsucc : u.si.toNat + 1 < u.flen u.fk := by omega
      have htake : u.xferEdge x = u.staged (u.si + 1) (u.takeByte x.xferRx).stage :=
        he.trans (State.takeByte_eq_staged hsucc _)
      have hfills' := hfills.exchange (e := ⟨u.slotByte u.fk u.si.toNat, x.xferRx, x.xferErr && u.build.transportHasErr⟩) rfl hfails
        (d.busy || d'.busy)
      rw [htake]
      change DevicePhase p old _ _ _ u.st
      rw [hst]
      refine ⟨hbefore'.extend _ _ _, _, Device.extend_window hwin' _ _, ?_, hseen' _ _ hquiet⟩
      change State.Fills _ (u.si + 1).toNat _
      rw [State.toNat_si_succ hsucc]
      exact hfills'
    · have hfull : u.si.toNat + 1 = u.flen u.fk := by omega
      have hfills' := hfills.exchange (e := ⟨u.slotByte u.fk u.si.toNat, x.xferRx, x.xferErr && u.build.transportHasErr⟩) rfl hfails
        (d.busy || d'.busy)
      rw [hfull] at hfills'
      set v := ((u.capture u.fk u.si.toNat x.xferRx).frameEffect u.fk).closeFrame with hv
      have hvfk : v.fk = u.fk := by rw [hv, ← u.capture_frame, State.frameEffect_eq]; rfl
      have hpoll (hk : u.fk = .poll) : writeInProgress v.sr = d'.busy := by
        have hone : u.si.toNat = 1 := by rw [hk] at hfull; exact Nat.succ.inj hfull
        have hsr : v.sr = x.xferRx := by simp [hv, hk, State.capture, State.frameEffect, hone]
        obtain ⟨hwhole, hsent⟩ := hfills
        rw [hone, hk] at hsent
        rw [hsr]
        exact (hbring _ rfl w hwin' hwhole hfails).1 hsent
      rw [he]
      intro _ e' hcloses
      rw [hvfk]
      exact (hbefore'.extend (d.busy || d'.busy) false _).closes (Device.extend_window hwin' _ _) hfills' (hseen' _ _ hquiet) hbuf
        haddr harg hn hrange (toNat_csGap_setWidth _) hpoll hcloses

end

/-! ### The other states -/

/-- Under FIXED_DELAY the device's write time is over within the wait (R165). -/
def State.WaitsLongEnough (s : State) (p : DeviceParams) : Prop :=
  s.policy = .fixedDelay → ∃ m, p.writeTime = some m ∧ m ≤ s.wdelay.toNat + s.build.csGap.toNat

section
variable {p : DeviceParams} {old new : Memory} {s u : State} {addr : Addr} {n : Nat} {d e : Device} {x : CycleIn}

/-- R129: one cycle of GAP. -/
theorem State.DeviceAfter.countDown {fk : FrameKind} (h : u.DeviceAfter d old new fk) (hc : 1 < u.cnt)
    (hp : Device.Passes p d e) : u.countDown.DeviceAfter e old new fk := by
  obtain ⟨-, harray, -⟩ := hp.frame
  cases fk with
  | wren => exact (Device.Before.passes (new := new) (fk := .write) h hp).1
  | write =>
    obtain ⟨ha, hk⟩ := h
    refine ⟨harray.trans ha, fun k hek => ?_⟩
    obtain ⟨j, hj, rfl, -⟩ := hp.writing_eq_some hek
    have hcount := hk j hj
    change u.build.csGap.toNat ≤ j + 1 + (u.cnt - 1).toNat
    bv_omega
  | poll =>
    obtain ⟨ha, hwip⟩ := h
    refine ⟨harray.trans ha, fun hz => ?_⟩
    obtain rfl := hp.of_not_busy (hwip hz)
    exact hwip hz
  | wrdi | read | rdsr | wrsr => exact h.elim

/-- R76, R163: a write whose time is over is not in progress any more. -/
theorem Device.Passes.not_busy_of_time {b : Nat} (hp : Device.Passes p d e) (hk : ∀ k, d.writing = some k → b ≤ k + 1)
    (ht : ∃ m, p.writeTime = some m ∧ m ≤ b) : e.busy = false := by
  obtain ⟨m, hm, hle⟩ := ht
  cases hw : e.writing with
  | none => rw [Device.busy, hw]; rfl
  | some k =>
    obtain ⟨j, hj, rfl, hlt⟩ := hp.writing_eq_some hw
    have hcount := hk j hj
    have htime := hlt m hm
    omega

/-- R134: the poll decision. -/
theorem State.DevicePhase.pollDecision (hk : u.fk = .poll) (hw : e.window = none) (ha : e.array = new)
    (hwip : writeInProgress u.sr = false → e.busy = false) : u.pollDecision.DevicePhase p old new e u.pollDecision.st := by
  rcases u.pollDecision_cases with ⟨hz, he⟩ | ⟨-, -, he⟩ | ⟨-, -, -, he⟩ | ⟨-, -, -, he⟩ <;> rw [he]
  · exact fun _ => ⟨hw, hwip hz, ha⟩
  · exact nofun
  · exact ⟨hw, ha⟩
  · exact ⟨hk, hw, ha⟩

/-- R130: the last cycle of GAP. -/
theorem State.DevicePhase.afterGap (h : u.DeviceAfter d old new u.fk) (hw : d.window = none) (hlast : ¬ 1 < u.cnt)
    (habort : u.abort = false) (hi : s.Issued (encode (.write addr n)) u) (ht : s.WaitsLongEnough p)
    (hp : Device.Passes p d e) : u.afterGap.DevicePhase p old new e u.afterGap.st := by
  obtain ⟨-, harray, hwin⟩ := hp.frame
  have hew := hwin.trans hw
  cases hk : u.fk <;> rw [hk] at h
  case wrdi | read | rdsr | wrsr => exact h.elim
  case wren =>
    rw [State.afterGap_of_enable habort hk hi.curOpc_write]
    exact ⟨hew, (Device.Before.passes (new := new) (fk := .write) h hp).1⟩
  case write =>
    obtain ⟨ha, hcount⟩ := h
    rw [State.afterGap_of_write habort hk, u.startWait_eq]
    split
    case isFalse => exact ⟨hew, harray.trans ha⟩
    case isTrue hpol =>
      split
      case isTrue h0 =>
        have hover : e.busy = false := by
          obtain ⟨m, hm, hle⟩ := ht (hi.policy.symm.trans hpol)
          refine hp.not_busy_of_time (b := u.build.csGap.toNat) (fun k hk => ?_) ⟨m, hm, ?_⟩
          · have := hcount k hk
            bv_omega
          · rw [← hi.wdelay, h0, ← hi.build] at hle
            exact hle.trans_eq (Nat.zero_add _)
        exact fun _ => ⟨hew, hover, harray.trans ha⟩
      case isFalse =>
        refine ⟨hpol, hew, harray.trans ha, fun k hek => ?_⟩
        obtain ⟨j, hj, rfl, -⟩ := hp.writing_eq_some hek
        have := hcount j hj
        change u.build.csGap.toNat + u.wdelay.toNat ≤ j + 1 + u.wdelay.toNat
        bv_omega
  case poll =>
    obtain ⟨ha, hwip⟩ := h
    rw [State.afterGap_of_poll habort hk]
    refine State.DevicePhase.pollDecision hk hew (harray.trans ha) fun hz => ?_
    obtain rfl := hp.of_not_busy (hwip hz)
    exact hwip hz

/-- R122, R124, R129 to R135: the transitions of a WRITE outside XFER, and the device. -/
theorem State.DevicePhase.fsmEdge {tr : Traffic} (h : u.DevicePhase p old new d u.st) (hh : u.History tr u.st)
    (hi : s.Issued (encode (.write addr n)) u) (ht : s.WaitsLongEnough p) (busy : u.st ≠ .idle) (hx : u.st ≠ .xfer)
    (hr : x.rst = false) (hc : Device.Cycle p d (u.wire x) e) : (u.fsmEdge x).DevicePhase p old new e (u.fsmEdge x).st := by
  have high (hcs : u.csN = true) : ∃ d', Device.Closes p d d' ∧ Device.Passes p d' e := by
    rw [State.wire_of_csN hcs] at hc
    exact hc.high_cases
  unfold State.fsmEdge
  cases hst : u.st <;> rw [hst] at h hh <;> dsimp only
  case idle => exact absurd hst busy
  case xfer => exact absurd hst hx
  case assert =>
    obtain ⟨hw, hbefore⟩ := h
    rw [State.wire_assert hst, hr] at hc
    obtain ⟨d', hp, -, rfl⟩ := hc.low_cases
    obtain ⟨-, -, hwin⟩ := hp.frame
    obtain ⟨hbefore', hquiet⟩ := hbefore.passes hp
    have hopen : d'.openWindow = ⟨[], false, false⟩ := by rw [Device.openWindow, hwin, hw]; rfl
    refine ⟨hbefore'.extend _ _ _, _, rfl, ?_, fun hk => ?_⟩
    · rw [hopen]; exact ⟨⟨rfl, nofun⟩, rfl⟩
    · rw [hopen, hquiet hk]; rfl
  all_goals obtain ⟨d', hcloses, hp⟩ := high (by rw [State.csN, hst])
  case check =>
    obtain rfl := hcloses.of_window_none h.1
    obtain ⟨hw, hb, ha⟩ := h.passes hp
    rcases u.checkEdge_cases with ⟨-, he⟩ | ⟨-, he⟩ <;> rw [he]
    · rw [hi.curOpc_write]
      exact ⟨hw, hb, ha⟩
    · exact nofun
  case gap =>
    unfold State.gapEdge
    split
    case isTrue hcount =>
      rw [State.countDown_st, hst]
      intro habort e' hcloses'
      obtain ⟨hw, hafter⟩ := h habort d' hcloses
      obtain ⟨-, -, hwin⟩ := hp.frame
      have hew := hwin.trans hw
      obtain rfl := hcloses'.of_window_none hew
      exact ⟨hew, hafter.countDown hcount hp⟩
    case isFalse hlast =>
      obtain ⟨-, ⟨⟨habort, -⟩, -⟩ | ⟨⟨habort, hres⟩, -⟩⟩ := hh
      · obtain ⟨hw, hafter⟩ := h habort d' hcloses
        exact State.DevicePhase.afterGap hafter hw hlast habort hi ht hp
      · have he : u.afterGap = u.toFinish := if_pos habort
        rw [he]
        intro hok
        rw [State.toFinish_res, hres] at hok
        cases hok
  case delay =>
    obtain ⟨hpol, hw, ha, hcount⟩ := h
    obtain rfl := hcloses.of_window_none hw
    obtain ⟨-, harray, hwin⟩ := hp.frame
    unfold State.delayEdge
    split
    case isTrue hmore =>
      rw [State.countDown_st, hst]
      refine ⟨hpol, hwin.trans hw, harray.trans ha, fun k hek => ?_⟩
      obtain ⟨j, hj, rfl, -⟩ := hp.writing_eq_some hek
      have := hcount j hj
      change u.build.csGap.toNat + u.wdelay.toNat ≤ j + 1 + (u.cnt - 1).toNat
      bv_omega
    case isFalse hlast =>
      refine fun _ => ⟨hwin.trans hw, ?_, harray.trans ha⟩
      obtain ⟨m, hm, hle⟩ := ht (hi.policy.symm.trans hpol)
      refine hp.not_busy_of_time (b := u.build.csGap.toNat + u.wdelay.toNat) (fun k hk => ?_) ⟨m, hm, ?_⟩
      · have := hcount k hk
        bv_omega
      · rw [hi.build, hi.wdelay]; omega
  case pgap =>
    obtain ⟨hk, hw, ha⟩ := h
    obtain rfl := hcloses.of_window_none hw
    obtain ⟨-, harray, hwin⟩ := hp.frame
    unfold State.pgapEdge
    split
    · rw [State.countDown_st, hst]; exact ⟨hk, hwin.trans hw, harray.trans ha⟩
    · refine ⟨hwin.trans hw, ?_⟩
      rw [State.reassert_fk, hk]
      exact harray.trans ha
  case finish =>
    intro hok
    have hholds := h hok
    obtain rfl := hcloses.of_window_none hholds.1
    exact hholds.passes hp

end

/-! ### A whole WRITE -/

/-- A WRITE that was issued in `s`, and the device. -/
structure State.WritesTo (s : State) (p : DeviceParams) (old new : Memory) (u : State) (d : Device) : Prop where
  buf : u.buf = s.buf
  phase : u.DevicePhase p old new d u.st

/-- R73, R76, R165: a WRITE inside one page that has ended with Ok has written the array. -/
theorem State.issue_write_device {s : State} {p : DeviceParams} {d0 : Device} {addr : Addr} {n : Nat} (hst : s.st = .idle)
    (hn : 1 ≤ n) (h255 : n ≤ 0xFF) (hw : d0.window = none) (hb : d0.busy = false) (hrange : p.inRange addr.toNat n)
    (ht : s.WaitsLongEnough p) (hdone : (s.issue (encode (.write addr n))).done = true) :
    ∃ u xs rs ws, s.issue (encode (.write addr n)) = u.withPending xs ∧
      RanOver (fun u ws => ∀ e, Device.Run p d0 ws e → s.WritesTo p d0.array (s.written addr n d0.array) u e) s
        (encode (.write addr n)) u rs ws := by
  refine State.issue_with_device hst ⟨rfl, hw, hb, rfl⟩ (fun u e d l h => ⟨h.buf, h.phase⟩) (fun u tr x d e hi hh busy hr h hc => ?_)
    (.inr hdone)
  obtain ⟨hbuf, hphase⟩ := h
  by_cases hx : u.st = .xfer
  · have he : u.fsmEdge x = u.xferEdge x := by simp only [State.fsmEdge, hx]
    rw [hx] at hh hphase
    have ⟨_, _, hsend, _⟩ := hh
    have hread : u.fk ≠ .read := by
      rcases frameOf_opcWrite (hi.curOpc_write ▸ hsend.kind) with hk | hk | hk <;> rw [hk] <;> decide
    obtain ⟨haddr, harg⟩ := hi.operands (.inr rfl) h255
    rw [he]
    exact ⟨(State.xferEdge_buffers_of_ne_read hread x).1.trans hbuf,
      hphase.xfer hh hx hr hbuf haddr harg hn hrange hc⟩
  · exact ⟨(State.fsmEdge_buffers_of_not_xfer hx x).1.trans hbuf, hphase.fsmEdge hh hi ht busy hx hr hc⟩

end Sys2Proof.Machine
end

/-! SUPPORT. A READ and the device it reads from, and the round trip through the device (obligation O55). -/

section
namespace Sys2Proof.Machine

/-! ### What each FSM state of a READ knows of the device -/

/-- The first `n` bytes of BUF are those of the array from `addr` on. -/
def State.HasRead (u : State) (m : Memory) (addr : Addr) (n : Nat) : Prop :=
  ∀ i, i < n → u.buf.read i = m.read (addr.toNat + i)

/-- What holds in each FSM state of a READ of `n` bytes from `addr` that was issued in `s`, from a device with the array `m`, unless
an exchange has failed. -/
def State.DeviceReadPhase (s : State) (m : Memory) (addr : Addr) (n : Nat) (u : State) (d : Device) : SeqState → Prop
  | .check | .assert => d.Holds m ∧ u.buf = s.buf ∧ u.stage.wf
  | .xfer => d.busy = false ∧ d.array = m ∧ u.buf = s.buf ∧ u.stage.wf ∧
      (∃ w, d.window = some w ∧ u.Fills u.si.toNat w ∧ w.busySeen = false) ∧
      ∀ i, i + 3 < u.si.toNat → u.stage.read i = m.read (addr.toNat + i)
  | .gap => u.fk = .read ∧ (u.abort = false → u.HasRead m addr n)
  | .finish => u.res = .ok → u.HasRead m addr n
  | .idle => u.result = .ok → u.HasRead m addr n
  | .delay | .pgap => False

section
variable {p : DeviceParams} {m : Memory} {s u : State} {addr : Addr} {n : Nat} {d e : Device} {x : CycleIn} {tr : Traffic}

/-- R74: the byte that a device brings in a data slot of a READ. -/
theorem Device.mayBring_read {w : Window} {y : Exchange} (h : d.mayBring p false y) (hw : d.window = some w)
    (hfills : u.Fills u.si.toNat w) (hseen : w.busySeen = false) (hk : u.fk = .read) (haddr : u.curAddr = addr)
    (hrange : p.inRange addr.toNat n) (h3 : 3 ≤ u.si.toNat) (hn : u.si.toNat < 3 + n) (herr : y.err = false) :
    y.rx = d.array.read (addr.toNat + (u.si.toNat - 3)) := by
  obtain ⟨hwhole, hsent⟩ := hfills
  obtain ⟨-, hread⟩ := h w hw hwhole herr
  have hbytes : w.exchanges.sent =
      opcRead :: addrHigh addr :: addrLow addr :: List.replicate (u.si.toNat - 3) 0x00 := by
    have hheader := State.map_slotByte_header (s := u) (fk := .read) (u.si.toNat - 3) rfl rfl rfl (data := fun _ => 0x00)
      fun _ => rfl
    rw [Nat.add_sub_cancel' h3, List.map_const', List.length_range] at hheader
    rw [hsent, hk, hheader, ← haddr]
    rfl
  have hbyte := hread _ _ _ hbytes hseen rfl
  rw [wireAddr_eq, List.length_replicate] at hbyte
  exact hbyte (DeviceParams.inRange_mono hrange (by omega))

/-- R74, R98: XFER. -/
theorem State.DeviceReadPhase.xfer (h : s.DeviceReadPhase m addr n u d .xfer) (hh : u.History tr .xfer) (hst : u.st = .xfer)
    (hr : x.rst = false) (hk : u.fk = .read) (hwf : s.buf.wf) (haddr : u.curAddr = addr) (harg : u.curArg.toNat = n)
    (hfits : n ≤ u.build.bufBytes) (hrange : p.inRange addr.toNat n) (hc : Device.Cycle p d (u.wire x) e) :
    s.DeviceReadPhase m addr n (u.xferEdge x) e (u.xferEdge x).st := by
  obtain ⟨hb, ha, hbuf, hstage, ⟨w, hw, hfills, hseen⟩, hbytes⟩ := h
  obtain ⟨-, -, -, hslot, -⟩ := hh
  cases hx : x.xferDone with
  | false =>
    have he : u.xferEdge x = u := by rw [State.xferEdge, if_pos hx]
    rw [State.wire_xfer_waiting hst hx, hr] at hc
    obtain ⟨rfl, -⟩ := hc.low_of_not_busy hb
    rw [he, hst]
    refine ⟨hb, ha, hbuf, hstage, ⟨_, Device.extend_window hw _ _, hfills.wait _, ?_⟩, hbytes⟩
    rw [Window.extend, hseen]; rfl
  | true =>
    rw [State.wire_xfer_done hst hslot hx, hr] at hc
    obtain ⟨rfl, hbring⟩ := hc.low_of_not_busy hb
    rw [hk, State.flen, harg] at hslot
    have hcap := u.capture_read_eq_staged u.si.toNat x.xferRx
    have hstage' := State.wf_capture hstage .read u.si.toNat x.xferRx
    have hread (herr : u.xferFails x = false) (i : Nat) (hi : i + 3 < u.si.toNat + 1) :
        (u.capture .read u.si.toNat x.xferRx).stage.read i = m.read (addr.toNat + i) := by
      rw [State.read_capture_read hstage (harg.trans_le hfits) (harg.symm ▸ hslot)]
      split
      case isTrue hlast =>
        have hbyte := Device.mayBring_read (hbring _ rfl) hw hfills hseen hk haddr hrange (by omega) hslot herr
        change x.xferRx = _ at hbyte
        rw [hbyte, ha, ← hlast, Nat.add_sub_cancel]
      case isFalse hne => exact hbytes i (by omega)
    have hflen : u.flen u.fk = 3 + n := by rw [hk, State.flen, harg]
    rcases u.xferEdge_cases x with ⟨hnot, -⟩ | ⟨-, hfails, he⟩ | ⟨-, hfails, hnext, he⟩ | ⟨-, hfails, hlast, he⟩
    · rw [hx] at hnot; cases hnot
    · rw [he]; exact ⟨hk, nofun⟩
    · have hsucc := State.toNat_si_succ (s := u) (by omega)
      rw [hk, hcap] at he
      rw [he]
      change s.DeviceReadPhase m addr n _ _ u.st
      rw [hst]
      refine ⟨hb, ha, hbuf, hstage', ⟨_, Device.extend_window hw _ _, ?_, ?_⟩, fun i hi => hread hfails i ?_⟩
      · change State.Fills _ (u.si + 1).toNat _
        rw [hsucc]
        exact hfills.exchange rfl hfails _
      · rw [Window.extend, hseen]; rfl
      · change i + 3 < (u.si + 1).toNat at hi
        omega
    · rw [he, hk]
      refine ⟨by rw [hcap]; exact hk, fun _ i hi => ?_⟩
      have hcopy := State.read_commitStage (s := u.capture .read u.si.toNat x.xferRx) (by rw [hcap]; exact hbuf ▸ hwf) n i
      rw [if_pos ⟨hi, by rw [hcap]; exact hi.trans_le hfits⟩, hread hfails i (by omega)] at hcopy
      rw [← hcopy]
      change Memory.read ((u.capture .read u.si.toNat x.xferRx).commitStage _).buf i = _
      rw [hcap]
      change Memory.read (State.commitStage _ u.curArg.toNat).buf i = _
      rw [harg]

/-- R122, R124, R129, R135: the transitions of a READ outside XFER, and the device. -/
theorem State.DeviceReadPhase.fsmEdge (h : s.DeviceReadPhase m addr n u d u.st) (hh : u.History tr u.st)
    (busy : u.st ≠ .idle) (hx : u.st ≠ .xfer) (hr : x.rst = false) (hc : Device.Cycle p d (u.wire x) e) :
    s.DeviceReadPhase m addr n (u.fsmEdge x) e (u.fsmEdge x).st := by
  unfold State.fsmEdge
  cases hst : u.st <;> rw [hst] at h hh <;> dsimp only
  case idle => exact absurd hst busy
  case xfer => exact absurd hst hx
  case delay | pgap => exact h.elim
  case check =>
    obtain ⟨⟨hw, hb, ha⟩, hbuf, hstage⟩ := h
    rw [State.wire_of_csN (by rw [State.csN, hst])] at hc
    obtain rfl := hc.high_of_not_busy hw hb
    rcases u.checkEdge_cases with ⟨-, he⟩ | ⟨-, he⟩ <;> rw [he]
    · exact ⟨⟨hw, hb, ha⟩, hbuf, hstage⟩
    · exact nofun
  case assert =>
    obtain ⟨⟨hw, hb, ha⟩, hbuf, hstage⟩ := h
    rw [State.wire_assert hst, hr] at hc
    obtain ⟨rfl, -⟩ := hc.low_of_not_busy hb
    have hopen : d.openWindow = ⟨[], false, false⟩ := by rw [Device.openWindow, hw]; rfl
    refine ⟨hb, ha, hbuf, hstage, ⟨_, rfl, ?_, ?_⟩, nofun⟩
    · rw [hopen]; exact ⟨⟨rfl, nofun⟩, rfl⟩
    · rw [hopen]; rfl
  case gap =>
    obtain ⟨hk, hread⟩ := h
    unfold State.gapEdge
    split
    · rw [State.countDown_st, hst]; exact ⟨hk, hread⟩
    · rw [State.afterGap_of_read hk]
      intro hok
      obtain ⟨-, ⟨⟨habort, -⟩, -⟩ | ⟨⟨-, hres⟩, -⟩⟩ := hh
      · exact hread habort
      · rw [State.toFinish_res, hres] at hok; cases hok
  case finish => exact h

end

/-- R74, R165: a READ inside one page that has ended with Ok has read the array. -/
theorem State.issue_read_device {s : State} {p : DeviceParams} {d0 : Device} {addr : Addr} {n : Nat} (hst : s.st = .idle)
    (hbwf : s.buf.wf) (hswf : s.stage.wf) (hfits : n ≤ s.build.bufBytes) (h255 : n ≤ 0xFF) (hw : d0.window = none)
    (hb : d0.busy = false) (hrange : p.inRange addr.toNat n) (hdone : (s.issue (encode (.read addr n))).done = true) :
    ∃ u xs rs ws, s.issue (encode (.read addr n)) = u.withPending xs ∧
      RanOver (fun u ws => ∀ e, Device.Run p d0 ws e → s.DeviceReadPhase d0.array addr n u e u.st) s
        (encode (.read addr n)) u rs ws := by
  refine State.issue_with_device (Q := fun u e => s.DeviceReadPhase d0.array addr n u e u.st) hst ⟨⟨hw, hb, rfl⟩, rfl, hswf⟩
    (fun u e d l h => h) (fun u tr x d e hi hh busy hr h hc => ?_) (.inr hdone)
  by_cases hx : u.st = .xfer
  · have he : u.fsmEdge x = u.xferEdge x := by simp only [State.fsmEdge, hx]
    rw [hx] at hh h
    have ⟨_, _, hsend, _⟩ := hh
    obtain ⟨haddr, harg⟩ := hi.operands (.inl rfl) h255
    rw [he]
    exact h.xfer hh hx hr (frameOf_opcRead (hi.curOpc_read ▸ hsend.kind)) hbwf haddr harg (hi.build ▸ hfits) hrange hc
  · exact h.fsmEdge hh busy hx hr hc

/-! ### The round trip -/

/-- Every command keeps the canonical form of BUF and STAGE. -/
theorem State.wf_issue {s : State} (hb : s.buf.wf) (hs : s.stage.wf) (w : Word) : (s.issue w).buf.wf ∧ (s.issue w).stage.wf :=
  State.issue_induct (P := fun u => u.buf.wf ∧ u.stage.wf) (fun _ x h => State.wf_edge h.1 h.2 x) (fun _ _ h => h) s w ⟨hb, hs⟩

/-- No command changes the build (R9). -/
theorem State.build_issue (s : State) (w : Word) : (s.issue w).build = s.build :=
  State.issue_induct (P := fun u => u.build = s.build) (fun u x h => (u.edge_build x).trans h) (fun _ _ h => h) s w rfl

/-- The frames between two states are those of the wire between them. -/
theorem framesBetween_eq_framesOnWire (s t : State) : framesBetween s t = framesOnWire none (wireBetween s t) :=
  framesFrom_eq_framesOnWire _ none _

/-- R237: without a reset in a low cycle, no window of the wire is cut off. -/
theorem cut_eq_false_of_wireBetween {s t : State} (h : ∀ r ∈ elapsed s t, r.outputs.csN = false → r.inputs.rst = false)
    (x : Option Exchange) (cut : Bool) (hx : .low x cut ∈ wireBetween s t) : cut = false := by
  obtain ⟨r, hr, hwire⟩ := List.mem_map.mp hx
  rw [CycleRecord.wire] at hwire
  split at hwire
  case isTrue => cases hwire
  case isFalse hcs =>
    cases hwire
    exact h r hr (by simpa using hcs)

/-- R35, R138: what a device sees of a command that has ended, from the cycle of its acceptance on. -/
theorem State.wireBetween_issue {s : State} {w : Word} (hst : s.st = .idle) (hdone : (s.issue w).done = true) :
    ∃ ws, wireBetween s (s.issue w) = .high :: ws := by
  obtain ⟨u, xs, rs, ws, hrun, hran⟩ := State.issue_over (R := fun _ _ => True) hst trivial (fun _ _ _ _ => id)
    (fun _ _ _ _ _ _ _ => id) (.inr hdone)
  exact ⟨ws, hrun ▸ hran.wireBetween_eq xs⟩

section
variable {p : DeviceParams} {d e : Device} {s t : State} {addr : Addr} {n : Nat} {ws : List WireCycle}

/-- R73, R76, R165: a WRITE that has ended with Ok has written its bytes, and the device's write is over. -/
theorem Device.Run.of_write (h : Device.Run p d ws e) (hws : wireBetween s (s.issue (encode (.write addr n))) = .high :: ws)
    (hst : s.st = .idle) (hn : 1 ≤ n) (h255 : n ≤ 0xFF) (hw : d.window = none) (hb : d.busy = false)
    (hrange : p.inRange addr.toNat n) (ht : s.WaitsLongEnough p) (hdone : (s.issue (encode (.write addr n))).done = true)
    (hok : (s.issue (encode (.write addr n))).result = .ok) : e.Holds (s.written addr n d.array) := by
  obtain ⟨u, xs, rs, ws', hrun, hran⟩ := State.issue_write_device hst hn h255 hw hb hrange ht hdone
  rw [hrun] at hws hdone hok
  obtain rfl : ws' = ws := List.tail_eq_of_cons_eq ((hran.wireBetween_eq xs).symm.trans hws)
  have hphase := (hran.holds e h).phase
  rw [hran.done_iff.mp hdone] at hphase
  exact hphase hok

/-- R71, R73: frames that hold no WRITE leave the array as it is. -/
theorem Device.Run.of_quiet {m : Memory} (h : Device.Run p d (wireBetween s t ++ [.high]) e) (hd : d.Holds m)
    (hcut : ∀ r ∈ elapsed s t, r.outputs.csN = false → r.inputs.rst = false) (hf : ∀ f ∈ framesBetween s t, f.harmless p) :
    e.Holds m := by
  obtain ⟨hw, hb, ha⟩ := hd
  obtain ⟨hw', hb', ha'⟩ := h.of_harmless (window := none) hw hb (cut_eq_false_of_wireBetween hcut)
    (framesBetween_eq_framesOnWire s t ▸ hf)
  exact ⟨hw', hb', ha'.trans ha⟩

/-- R74, R165: a READ that has ended with Ok has brought the bytes of the array into BUF. -/
theorem Device.Run.of_read {m : Memory} (h : Device.Run p d ws e)
    (hws : wireBetween s (s.issue (encode (.read addr n))) = .high :: ws) (hst : s.st = .idle) (hbwf : s.buf.wf)
    (hswf : s.stage.wf) (hfits : n ≤ s.build.bufBytes) (h255 : n ≤ 0xFF) (hd : d.Holds m) (hrange : p.inRange addr.toNat n)
    (hdone : (s.issue (encode (.read addr n))).done = true) (hok : (s.issue (encode (.read addr n))).result = .ok) :
    (s.issue (encode (.read addr n))).HasRead m addr n := by
  obtain ⟨hw, hb, rfl⟩ := hd
  obtain ⟨u, xs, rs, ws', hrun, hran⟩ := State.issue_read_device hst hbwf hswf hfits h255 hw hb hrange hdone
  rw [hrun] at hws hdone hok ⊢
  obtain rfl : ws' = ws := List.tail_eq_of_cons_eq ((hran.wireBetween_eq xs).symm.trans hws)
  have hphase := hran.holds e h
  rw [hran.done_iff.mp hdone] at hphase
  exact hphase hok

end

/-- R73: the bytes that a WRITE has put into the array are those of BUF. -/
theorem State.read_written {m : Memory} (s : State) (hwf : m.wf) (addr : Addr) {n i : Nat} (hi : i < n) :
    (s.written addr n m).read (addr.toNat + i) = s.buf.read i := by
  rw [State.written, Memory.read_store hwf, if_pos (Nat.le_add_right _ _), Nat.add_sub_cancel_left, List.getElem?_map,
    List.getElem?_range hi]
  rfl

/-- Settles O55: the WRITE puts the bytes into the array and its write cycle ends, the harmless frames leave the array alone, and
the READ puts the bytes of the array into BUF. -/
theorem roundTripThroughTheDevice : Obligations.RoundTripThroughTheDevice := by
  intro p d0 d1 s t u v addr n hl hst hbwf hswf h1 hn hw hb hawf hrange hwrite htdone htok htime hreach hust hcut hharmless hread
    hvdone hvok hrun i hi
  have h255 := le_len_max hl hn
  rw [exec_eq_issue] at hwrite hread
  cases hwrite
  cases hread
  have ht : s.WaitsLongEnough p := fun hfixed => htime.resolve_left (by rw [hfixed]; decide)
  obtain ⟨hubwf, huswf⟩ : u.buf.wf ∧ u.stage.wf := hreach.wf (s.wf_issue hbwf hswf _).1 (s.wf_issue hbwf hswf _).2
  have htbuild := s.build_issue (encode (.write addr n))
  have hubuild : u.build = s.build := hreach.build.trans htbuild
  have htlog := s.log_issue (encode (.write addr n))
  have hvlog := u.log_issue (encode (.read addr n))
  obtain ⟨ws, hws⟩ := State.wireBetween_issue hst htdone
  obtain ⟨ws', hws'⟩ := State.wireBetween_issue hust hvdone
  have hwire : (wireBetween s (u.issue (encode (.read addr n)))).tail =
      ws ++ ((wireBetween (s.issue (encode (.write addr n))) u ++ [.high]) ++ ws') := by
    rw [wireBetween_append htbuild htlog (hreach.log.trans hvlog), wireBetween_append hreach.build hreach.log hvlog, hws, hws']
    simp
  rw [hwire] at hrun
  obtain ⟨e1, hrun1, hrun⟩ := Device.Run.append_iff.mp hrun
  obtain ⟨e2, hrun2, hrun3⟩ := Device.Run.append_iff.mp hrun
  have he1 := hrun1.of_write hws hst h1 h255 hw hb hrange ht htdone htok
  have he2 := hrun2.of_quiet he1 hcut hharmless
  have hbuf := hrun3.of_read hws' hust hubwf huswf (hubuild ▸ hn) h255 he2 hrange hvdone hvok
  exact (hbuf i hi).trans (s.read_written hawf addr hi)

end Sys2Proof.Machine
end

/-! SUPPORT. The latch and status commands WREN, WRDI, RDSR and WRSR over the calm cycles in which they complete, and the status
decode (obligations O32 and O37 to O39). -/

section
namespace Sys2Proof.Machine

/-! ### The status byte -/

/-- Settles O32: bit 0 of a byte is its remainder by 2, and the WIP field of STAT is that bit of SR. -/
theorem statusDecode : Obligations.StatusDecode := by
  refine ⟨fun b => Nat.testBit_zero b.toNat, rfl, rfl, rfl, fun s => ?_⟩
  obtain ⟨-, -, -, -, -, -, -, -, hwip, -⟩ := statWordFields s
  exact hwip

/-! ### The commands and their one frame -/

/-- R180 to R184: the latch and status commands, each with the kind of its one frame. -/
inductive LatchStatus : Instr → FrameKind → Prop
  | wren (a : Addr) (b : Byte) : LatchStatus (.wren a b) .wren
  | wrdi (a : Addr) (b : Byte) : LatchStatus (.wrdi a b) .wrdi
  | rdsr (a : Addr) (b : Byte) : LatchStatus (.rdsr a b) .rdsr
  | wrsr (b : Byte) (a : Addr) : LatchStatus (.wrsr b a) .wrsr

section
variable {i : Instr} {fk : FrameKind} {s u : State}

/-- R180, R181, R184: all of them but RDSR discard what they receive. -/
theorem exists_latchStatus {a : Addr} {b : Byte} (h : i = .wren a b ∨ i = .wrdi a b ∨ i = .rdsr a b ∨ i = .wrsr b a) :
    ∃ fk, LatchStatus i fk ∧ (i ≠ .rdsr a b → fk.Discards) := by
  rcases h with rfl | rfl | rfl | rfl
  · exact ⟨.wren, .wren a b, fun _ => trivial⟩
  · exact ⟨.wrdi, .wrdi a b, fun _ => trivial⟩
  · exact ⟨.rdsr, .rdsr a b, fun h => absurd rfl h⟩
  · exact ⟨.wrsr, .wrsr b a, fun _ => trivial⟩

/-- R93, R97: the code of the command is the first byte of its frame. -/
theorem LatchStatus.curOpc (h : LatchStatus i fk) (hu : u.lastCmd = encode i) : u.curOpc = fk.opcode := by
  rw [State.curOpc, hu]
  cases h with
  | wren a b => exact (Laws.EncodedFields.wren a b).1
  | wrdi a b => exact (Laws.EncodedFields.wrdi a b).1
  | rdsr a b => exact (Laws.EncodedFields.rdsr a b).1
  | wrsr b a => exact (Laws.EncodedFields.wrsr b a).1

/-- R122: none of them is an InvalidArgument. -/
theorem LatchStatus.validCommand (h : LatchStatus i fk) (hu : u.lastCmd = encode i) : u.validCommand = true := by
  rw [State.validCommand, h.curOpc hu]
  cases h <;> rfl

/-- R123: CHECK opens the frame of the command. -/
theorem LatchStatus.firstFrame_eq (h : LatchStatus i fk) (hu : u.lastCmd = encode i) : firstFrame u.curOpc = fk := by
  rw [h.curOpc hu]
  cases h <;> rfl

/-- R96: the length of the frame. -/
theorem LatchStatus.flen (h : LatchStatus i fk) (u : State) : u.flen fk = firstFlen i := by
  cases h <;> rfl

/-- R130: the frame is followed by FINISH, whether it has failed or not. -/
theorem LatchStatus.afterGap (h : LatchStatus i fk) (hu : u.lastCmd = encode i) (hk : u.fk = fk) : u.afterGap = u.toFinish := by
  cases ha : u.abort with
  | true => exact if_pos ha
  | false =>
    have hopc := h.curOpc hu
    subst hk
    exact State.afterGap_of_only ha (fun hk => by rw [hopc, hk]; decide) (fun hk => by rw [hk] at h; cases h)
      fun hk => by rw [hk] at h; cases h

/-! ### Over the calm cycles in which they complete -/

/-- R180, R181, R184, R139: a command that keeps nothing of what it receives, issued to an idle block: CHECK, its one frame, and
FINISH. -/
theorem LatchStatus.issue_of_discards (h : LatchStatus i fk) (hd : fk.Discards) {x c f : CycleIn} {fr rest : List CycleIn}
    {rx : List Byte} (hl : s.build.Legal) (hst : s.st = .idle) (hp : s.pending = x :: c :: (fr ++ f :: rest)) (hx : x.rst = false)
    (hc : c.calm = true) (hf : f.calm = true) (hlen : rx.length = firstFlen i) (hfr : frameCycles s.build.csGap.toNat rx fr) :
    ∃ si l, s.issue (encode i) =
        ((((s.accept (encode i)).openFrame fk).settled si).toFinish).finishCommand.withEnv rest l ∧
      (framesBetween s (s.issue (encode i))).map Frame.sent =
        [(List.range (firstFlen i)).map ((s.accept (encode i)).slotByte fk)] := by
  set v := (s.accept (encode i)).openFrame fk
  have hflen : v.flen v.fk = firstFlen i := h.flen v
  obtain ⟨ws, si, hws, hshows⟩ := State.BusyOver.frame_of_discards (s := v) hl rfl hd (hlen.trans hflen.symm) hfr
  have hgap : ({ v with si := si, cnt := 1, st := .gap } : State).afterGap = (v.settled si).toFinish := h.afterGap rfl rfl
  rw [hgap] at hws
  rw [hflen] at hshows
  obtain ⟨l, hrun, hsent⟩ := State.issue_of_command hst hp hx hc hf (h.validCommand rfl) (h.firstFrame_eq rfl) hws rfl hshows
  exact ⟨si, l, hrun, hsent⟩

end

/-- Settles O37: the frame of either is its opcode alone, of which nothing is kept. -/
theorem wrenAndWrdiComplete : Obligations.WrenAndWrdiComplete := by
  intro s ua ub i x c f fr rest b hl hst hi hp hx hc hf hfr
  obtain ⟨fk, hcommand, hd, hlen, hbyte⟩ : ∃ fk, LatchStatus i fk ∧ fk.Discards ∧ [b].length = firstFlen i ∧
      fk.opcode = if i = .wren ua ub then 0x06 else 0x04 := by
    rcases hi with rfl | rfl
    · exact ⟨.wren, .wren ua ub, trivial, rfl, (if_pos rfl).symm⟩
    · exact ⟨.wrdi, .wrdi ua ub, trivial, rfl, (if_neg nofun).symm⟩
  obtain ⟨si, l, hrun, hsent⟩ := hcommand.issue_of_discards hd hl hst hp hx hc hf hlen hfr
  refine ⟨_, exec_eq_issue i s, ?_⟩
  rw [hsent, hrun, ← hlen, ← hbyte, ← (s.accept (encode i)).slotByte_zero fk]
  exact ⟨rfl, rfl, rfl, rfl, rfl, rfl, rfl, rfl, rfl, rfl, rfl, rfl, rfl, rfl, rfl, rfl⟩

/-- Settles O38: the run of RDSR from CHECK to the end, and what STAT shows of SR. -/
theorem rdsrCompletes : Obligations.RdsrCompletes := by
  intro s ua ub x c f fr rest b status hl hst hp hx hc hf hfr
  obtain ⟨ws, hws, hshows⟩ := State.BusyOver.rdsr (s := s.accept (encode (.rdsr ua ub))) hl rfl
    ((LatchStatus.rdsr ua ub).curOpc rfl) rfl hc hf hfr
  obtain ⟨rs, hrun, hrs⟩ := State.issue_of_busyOver (rest := rest) hst (by rw [hp]; simp) hx hws rfl
  have hlog : (s.issue (encode (.rdsr ua ub))).log = s.log ++ rs := by rw [hrun]; rfl
  obtain ⟨-, -, -, -, hwip⟩ := statusDecode
  refine ⟨_, exec_eq_issue _ s, ?_⟩
  rw [framesBetween_eq hlog, hrs, hshows.high.frames, hrun]
  exact ⟨rfl, rfl, rfl, rfl, rfl, rfl, rfl, State.sr_statWord _, hwip _, rfl, rfl, rfl, rfl, rfl, rfl, rfl, rfl, rfl⟩

/-- Settles O39: the second byte of the frame is the ARG field of the command word. -/
theorem wrsrCompletes : Obligations.WrsrCompletes := by
  intro s value ua x c f fr rest b b' hl hst hp hx hc hf hfr
  obtain ⟨si, l, hrun, hsent⟩ := (LatchStatus.wrsr value ua).issue_of_discards trivial hl hst hp hx hc hf rfl hfr
  obtain ⟨-, -, harg⟩ := Laws.EncodedFields.wrsr value ua
  refine ⟨_, exec_eq_issue _ s, ?_⟩
  rw [hsent, hrun]
  exact ⟨rfl, rfl, rfl, rfl, rfl, rfl, rfl, rfl, rfl, rfl, rfl, rfl, rfl, rfl, rfl, congrArg (fun v => [[0x01, v]]) harg⟩

end Sys2Proof.Machine
end

/-! SUPPORT. The latch and status commands over any cycles: what they leave unchanged, and that they follow their pseudocode
(obligations O47 and O50). -/

section
namespace Sys2Proof.Machine

section
variable {i : Instr} {fk : FrameKind} {s u : State} {rs : List Reply}

/-! ### The pseudocode -/

/-- R180 to R184: after all answers of its frame a command has ended with Ok; RDSR keeps the last of them. -/
theorem LatchStatus.commandResult_of_whole (h : LatchStatus i fk) {r : Reply} (hrs : Unfailing rs) (hr : r.err = false)
    (hn : rs.length + 1 = firstFlen i) :
    commandResult s (rs ++ [r]) i = some ⟨s.buf, if fk = .rdsr then r.rx else s.sr, 0, .ok⟩ := by
  have hrun := runFrame_of_unfailing (hrs.concat hr) []
  rw [List.append_nil, List.length_append, List.length_singleton, hn] at hrun
  cases h with
  | wren | wrdi | wrsr => rw [firstFlen] at hrun; rw [commandResult, sendCommand, hrun]; rfl
  | rdsr =>
    rw [firstFlen] at hrun
    obtain ⟨r0, rfl⟩ := List.length_eq_one_iff.mp (Nat.succ.inj hn)
    rw [commandResult, rdsrCommand, hrun]; rfl

/-- R128, R180 to R184: after an answer that failed a command has ended with BusFault. -/
theorem LatchStatus.commandResult_of_fails (h : LatchStatus i fk) {r : Reply} (hrs : Unfailing rs) (hn : rs.length < firstFlen i)
    (hr : r.err = true) : commandResult s (rs ++ [r]) i = some ⟨s.buf, s.sr, 0, .busFault⟩ := by
  have hrun := runFrame_of_fails hrs hn hr
  cases h with
  | wren | wrdi | wrsr => rw [firstFlen] at hrun; rw [commandResult, sendCommand, hrun]; rfl
  | rdsr => rw [firstFlen] at hrun; rw [commandResult, rdsrCommand, hrun]; rfl

/-! ### What each FSM state of a latch or status command knows of the transport's answers -/

/-- What holds in each FSM state of the command `i`, with a frame of kind `fk`, that was issued in `s`, after the answers `rs`. -/
def State.LatchPhase (s : State) (i : Instr) (fk : FrameKind) (u : State) (rs : List Reply) : SeqState → Prop
  | .check => u.sr = s.sr ∧ rs = []
  | .assert => u.fk = fk ∧ u.sr = s.sr ∧ rs = []
  | .xfer => u.fk = fk ∧ u.sr = s.sr ∧ Unfailing rs ∧ rs.length = u.si.toNat
  | .gap => u.fk = fk ∧ commandResult s rs i = some ⟨s.buf, u.sr, 0, u.res⟩
  | .finish => commandResult s rs i = some ⟨s.buf, u.sr, 0, u.res⟩
  | .idle => commandResult s rs i = some ⟨s.buf, u.sr, 0, u.result⟩
  | .delay | .pgap => False

/-- The command `i`, with a frame of kind `fk`, that was issued in `s`, after the answers `rs`. -/
structure State.Latching (s : State) (i : Instr) (fk : FrameKind) (u : State) (rs : List Reply) : Prop where
  buf : u.buf = s.buf
  stage : u.stage = s.stage
  polls : u.polls = 0
  sr : fk.Discards → u.sr = s.sr
  phase : s.LatchPhase i fk u rs u.st

/-! ### The transitions -/

/-- R98: a byte before the frame's last is discarded. -/
theorem LatchStatus.capture_of_not_last (h : LatchStatus i fk) {k : Nat} (hk : k + 1 < u.flen fk) (rx : Byte) :
    u.capture fk k rx = u := by
  cases h with
  | wren | wrdi | wrsr => rfl
  | rdsr => exact if_neg (Nat.ne_of_lt (Nat.lt_of_succ_lt_succ hk))

/-- R98, R127: the frame's last byte goes to SR in RDSR and is discarded in the others. -/
theorem LatchStatus.frameEffect_capture_of_last (h : LatchStatus i fk) {k : Nat} (hk : k + 1 = u.flen fk) (rx : Byte) :
    (u.capture fk k rx).frameEffect fk = u.setSr (if fk = .rdsr then rx else u.sr) := by
  cases h with
  | wren | wrdi | wrsr => rfl
  | rdsr => exact if_pos (Nat.succ.inj hk)

/-- R122, R124, R129, R135: the transitions outside XFER. -/
theorem State.LatchPhase.fsmEdge (h : s.LatchPhase i fk u rs u.st) (hi : LatchStatus i fk) (hu : u.lastCmd = encode i)
    (busy : u.st ≠ .idle) (hx : u.st ≠ .xfer) (x : CycleIn) : s.LatchPhase i fk (u.fsmEdge x) rs (u.fsmEdge x).st := by
  unfold State.fsmEdge
  cases hst : u.st <;> rw [hst] at h <;> dsimp only
  case idle => exact absurd hst busy
  case xfer => exact absurd hst hx
  case delay | pgap => exact h.elim
  case check =>
    rcases u.checkEdge_cases with ⟨-, e⟩ | ⟨hv, -⟩
    · rw [e]; exact ⟨hi.firstFrame_eq hu, h⟩
    · rw [hi.validCommand hu] at hv; cases hv
  case assert =>
    obtain ⟨hk, hsr, rfl⟩ := h
    exact ⟨hk, hsr, nofun, rfl⟩
  case gap =>
    obtain ⟨hk, hends⟩ := h
    unfold State.gapEdge
    split
    · rw [State.countDown_st, hst]; exact ⟨hk, hends⟩
    · rw [hi.afterGap hu hk]; exact hends
  case finish => exact h

/-- R125 to R128: XFER, in which an exchange completes. -/
theorem State.Latching.xferEdge_of_done (h : s.Latching i fk u rs) (hi : LatchStatus i fk) (hst : u.st = .xfer)
    (hres : u.res = .ok) (hslot : u.si.toNat < u.flen u.fk) {x : CycleIn} (hx : x.xferDone = true) :
    s.Latching i fk (u.xferEdge x) (rs ++ [(⟨x.xferRx, u.xferFails x⟩ : Reply)]) := by
  obtain ⟨hbuf, hstage, hpolls, hsr, hp⟩ := h
  rw [hst] at hp
  obtain ⟨rfl, hstatus, hrs, hcount⟩ := hp
  have hflen := hi.flen u
  rcases u.xferEdge_cases x with ⟨hnot, -⟩ | ⟨-, hfails, e⟩ | ⟨-, hfails, hnext, e⟩ | ⟨-, hfails, hlast, e⟩
  · rw [hx] at hnot; cases hnot
  · rw [e, hfails]
    refine ⟨hbuf, hstage, hpolls, hsr, rfl, ?_⟩
    change commandResult s _ i = some ⟨s.buf, u.sr, 0, .busFault⟩
    rw [hstatus]
    exact hi.commandResult_of_fails hrs (by omega) rfl
  · have hsucc : u.si.toNat + 1 < u.flen u.fk := by omega
    rw [e, hi.capture_of_not_last hsucc, hfails]
    refine ⟨hbuf, hstage, hpolls, hsr, ?_⟩
    rw [State.nextSlot_st, hst]
    refine ⟨rfl, hstatus, hrs.concat rfl, ?_⟩
    rw [List.length_append, hcount]
    exact (State.toNat_si_succ hsucc).symm
  · have hwhole : u.si.toNat + 1 = u.flen u.fk := by omega
    rw [e, hi.frameEffect_capture_of_last hwhole, hfails]
    refine ⟨hbuf, hstage, hpolls, fun hd => ?_, rfl, ?_⟩
    · exact (if_neg fun hk => by rw [hk] at hd; exact hd).trans hstatus
    · change commandResult s _ i = some ⟨s.buf, if u.fk = .rdsr then x.xferRx else u.sr, 0, u.res⟩
      rw [hres, hstatus]
      exact hi.commandResult_of_whole hrs rfl (by omega)

/-- R120: one cycle of a latch or status command. -/
theorem State.Latching.fsmEdge {ws : List WireCycle} {tr : Traffic} (h : s.Latching i fk u (repliesOnWire ws))
    (hi : LatchStatus i fk) (hu : u.lastCmd = encode i) (hh : u.History tr u.st) (busy : u.st ≠ .idle) (x : CycleIn) :
    s.Latching i fk (u.fsmEdge x) (repliesOnWire (ws ++ [u.wire x])) := by
  by_cases hst : u.st = .xfer
  · rw [hst] at hh
    obtain ⟨-, ⟨-, hres⟩, -, hslot, -⟩ := hh
    cases hx : x.xferDone with
    | false =>
      rw [repliesOnWire_concat_of_none (by rw [State.wire_xfer_waiting hst hx]; rfl), State.fsmEdge_xfer_waiting hst hx]
      exact h
    | true =>
      have he : u.fsmEdge x = u.xferEdge x := by simp only [State.fsmEdge, hst]
      have hwire := State.wire_xfer_done hst hslot hx
      rw [he, repliesOnWire_concat_of_some (by rw [hwire]; rfl)]
      exact h.xferEdge_of_done hi hst hres hslot hx
  · obtain ⟨hsr, hpolls⟩ := State.fsmEdge_status_of_not_xfer hst x
    obtain ⟨hbuf, hstage⟩ := State.fsmEdge_buffers_of_not_xfer hst x
    rw [repliesOnWire_concat_of_none (State.exchange?_wire_of_not_xfer hst x)]
    exact ⟨hbuf.trans h.buf, hstage.trans h.stage, hpolls.trans h.polls, fun hd => hsr.trans (h.sr hd),
      h.phase.fsmEdge hi hu busy hst x⟩

/-- DROP and the log are no part of it. -/
theorem State.Latching.frame (h : s.Latching i fk u rs) (d : Bool) (l : List CycleRecord) :
    s.Latching i fk { u with drop := d, log := l } rs :=
  ⟨h.buf, h.stage, h.polls, h.sr, h.phase⟩

/-! ### Whole commands -/

/-- A latch or status command that is issued to an idle block, at the end of its run. -/
theorem LatchStatus.issue (hi : LatchStatus i fk) (hst : s.st = .idle) (hend : noReset s.pending) :
    ∃ u xs rs ws, s.issue (encode i) = u.withPending xs ∧
      RanOver (fun u ws => s.Latching i fk u (repliesOnWire ws)) s (encode i) u rs ws :=
  State.issue_over hst ⟨rfl, rfl, rfl, fun _ => rfl, rfl, rfl⟩ (fun _ _ d l h => h.frame d l)
    (fun _ _ x hu hh busy _ h => h.fsmEdge hi hu.lastCmd hh busy x) (.inl hend)

end

/-- Settles O47: no transition of the commands changes a buffer or counts a poll, and only RDSR's second byte changes SR. -/
theorem latchAndStatusCommandsLeaveTheRest : Obligations.LatchAndStatusCommandsLeaveTheRest := by
  intro s t i a b hst hi hnr hexec
  obtain ⟨fk, hcommand, hdiscards⟩ := exists_latchStatus hi
  obtain ⟨u, xs, rs, ws, hrun, hran⟩ := hcommand.issue hst hnr
  rw [exec_eq_issue, hrun] at hexec
  cases hexec
  obtain ⟨hcmd, hpolicy, hwdelay, hlimit, hgap, hbuild⟩ := hran.issued
  obtain ⟨hbuf, hstage, hpolls, hsr, -⟩ := hran.holds
  exact ⟨hpolicy, hwdelay, hlimit, hgap, hbuild, hbuf, hstage, hpolls, hcmd, fun hne => hsr (hdiscards hne)⟩

/-- Settles O50: what the idle state at the end of a command knows of the transport's answers. -/
theorem latchAndStatusCommandsFollowTheirPseudocode : Obligations.LatchAndStatusCommandsFollowTheirPseudocode := by
  intro s t i a b hst hi hnr hexec hidle
  obtain ⟨fk, hcommand, -⟩ := exists_latchStatus hi
  obtain ⟨u, xs, rs, ws, hrun, hran⟩ := hcommand.issue hst hnr
  rw [exec_eq_issue, hrun] at hexec
  cases hexec
  have hu : u.st = .idle := hidle
  obtain ⟨hbuf, -, hpolls, -, hphase⟩ := hran.holds
  rw [hu] at hphase
  have hvisible : (⟨s.buf, u.sr, 0, u.result⟩ : Visible) = (u.withPending xs).visible := by
    rw [← hbuf, ← hpolls]; rfl
  rw [hran.repliesBetween_eq, ← hvisible]
  exact ⟨hphase, hran.done_iff.mpr hu⟩

end Sys2Proof.Machine
end

/-! PROOFS. No fault and no refusal: what a step and a command answer (R205, R141; assumption log 14). -/

section
namespace Sys2Proof.Machine

/-- R94, R205: a step is a cycle, a command, or a reserved word that is issued like one; a state follows each. -/
theorem exists_step_eq_next (s : State) : ∃ t, step s = .next t := by
  rcases step_cases s with ⟨-, hcycle⟩ | ⟨w, i, -, -, hcommand⟩ | ⟨w, -, -, -, hreserved⟩
  · exact ⟨s.advance, hcycle⟩
  · exact ⟨s.issue (encode i), hcommand.trans (exec_eq_issue i s)⟩
  · exact ⟨s.issue w, hreserved⟩

/-- Settles O8: by the three ways a step can go, and by what every command does, which is to issue its word. -/
theorem everyStepAnswersNext : Obligations.EveryStepAnswersNext :=
  ⟨exists_step_eq_next, fun i s => ⟨s.issue (encode i), exec_eq_issue i s⟩⟩

end Sys2Proof.Machine
end

/-! PROOFS. Reset: what a reset cycle leaves (R230, R44), and what the block shows from the next cycle on. -/

section
namespace Sys2Proof.Machine

/-- R230, log 1: a step whose cycle has `rst = 1` is that cycle alone, a command written in it or not. -/
theorem step_of_rst {s : State} {x : CycleIn} {rest : List CycleIn} (hp : s.pending = x :: rest) (hr : x.rst = true) :
    step s = .next ((s.cycle x).withPending rest) :=
  stepIsOneClockEdge.1 s x rest hp (.inr (.inr (.inl hr)))

/-- R38 to R40, R230: an idle block keeps chip-select and hold high and requests no byte. -/
theorem State.lines_of_idle {s : State} (h : s.st = .idle) : s.csN = true ∧ s.holdN = true ∧ s.xferReq = false := by
  simp [State.csN, State.holdN, State.xferReq, h]

/-- Settles O11: the step is the reset edge, whose fields are R44's values, and the block is idle after it. -/
theorem resetCycleGivesResetValues : Obligations.ResetCycleGivesResetValues := by
  intro s x rest hp hr
  have hedge : s.edge x = s.resetEdge := State.edge_of_rst hr
  have hidle : ((s.cycle x).withPending rest).st = .idle := by simp [hedge]
  obtain ⟨hcs, hhold, hreq⟩ := State.lines_of_idle hidle
  refine ⟨_, step_of_rst hp hr, hidle, ?_⟩
  simp [hedge, hcs, hhold, hreq, ResultCode.code]

end Sys2Proof.Machine
end
